-- ==== Sys2Proof/Word.lean ====
section
/-! DEFINITION. The words of the TinyTR voice engine: fixed-width bit vectors, and the truncation the
spec writes `trunc_16(e)` (spec/00_scope.md R8). -/

namespace Sys2Proof

/-- `u8` (R8). -/
abbrev Byte := BitVec 8

/-- `u16` (R8): volumes, phases, steps, `TONE`, `LFSR`. -/
abbrev Word := BitVec 16

/-- `i16` (R8): a voice's contribution and the mixer's accumulator (R88). The bits; the value is `toInt`. -/
abbrev I16 := BitVec 16

/-- A command word: 24 bits (spec/30_encoding.md R59). -/
abbrev CmdWord := BitVec 24

/-- `trunc_16(e)`: the low 16 bits of a natural number (R8). -/
abbrev u16 (n : Nat) : Word := BitVec.ofNat 16 n

/-- `trunc_8(e)`: the low 8 bits of a natural number (R8). -/
abbrev u8 (n : Nat) : Byte := BitVec.ofNat 8 n

end Sys2Proof
end

