-- ==== Sys2Proof/Syntax.lean ====
section
/-! DEFINITION. What can be written down for the engine: the six voices, the ten commands (`Instr`, one
constructor per row of spec/opcode_table.json), the three events, the reasons a word is reserved, and the
lines of a textual trace (spec/30_encoding.md R64, R65). -/

namespace Sys2Proof

/-- The six voices in the order the source uses everywhere (spec/30_encoding.md R68). -/
inductive Voice where
  | kick | snare | hihat | clap | tom | cowbell
  deriving DecidableEq, Repr

/-- The six voices in the mixer's call order (spec/41_mixer_tick.md R87). -/
def Voice.inOrder : List Voice := [.kick, .snare, .hihat, .clap, .tom, .cowbell]

/-- The voices that step the shared noise register (spec/40_noise_lfsr.md R81). -/
def Voice.isNoise : Voice → Bool
  | .snare => true
  | .hihat => true
  | .clap => true
  | .kick => false
  | .tom => false
  | .cowbell => false

/-- The ten commands a word can spell (spec/30_encoding.md R60, R61). The operand types are the widths of R61,
so an operand out of range cannot be written. -/
inductive Instr where
  /-- `NOP` (R128). -/
  | nop
  /-- `TRIG.KICK #amp` (R101). -/
  | trigKick (amp : Word)
  /-- `TRIG.SNARE #amp` (R106). -/
  | trigSnare (amp : Word)
  /-- `TRIG.HHC #amp`, closed hat (R110). -/
  | trigHhc (amp : Word)
  /-- `TRIG.CLAP #amp` (R115). -/
  | trigClap (amp : Word)
  /-- `TRIG.TOM #amp` (R120). -/
  | trigTom (amp : Word)
  /-- `TRIG.COWBELL #amp` (R124). -/
  | trigCowbell (amp : Word)
  /-- `TRIG.HHO #amp`, open hat (R111). -/
  | trigHho (amp : Word)
  /-- `SET.TONE #tone` (R129). -/
  | setTone (tone : Word)
  /-- `SET.DECAY #idx` (R130). -/
  | setDecay (idx : BitVec 2)
  deriving DecidableEq, Repr

/-- The classes of reserved words, as spec/30_encoding.md R62 lists them. The hardware does not record which
(R151); the names are the decoder's. -/
inductive Reserved where
  /-- `op == 0` with a nonzero bit in `cmd[19:0]`. -/
  | nopBits
  /-- `op == 1` with `sel` in {6, 7, 8, 9, 11, 12, 13, 14, 15}. -/
  | triggerSelector
  /-- `op == 2` with `sel >= 2`. -/
  | parameterSelector
  /-- `op == 2`, `sel == 1` with `data > 3`. -/
  | decayData
  /-- `op >= 3`. -/
  | opcode
  deriving DecidableEq, Repr

/-- The three events (spec/00_scope.md R4). `cmd` is a completed handshake with any 24-bit word, legal or
reserved (R58). -/
inductive Event where
  | reset
  | tick
  | cmd (w : CmdWord)
  deriving DecidableEq, Repr

/-- One line of a textual trace with its numerals as written: the lines of R64 and the pseudo-operations of
R65. A numeral may be out of range; then the line is ill-formed (WellFormed.lean). -/
inductive TraceLine where
  | reset
  | tick
  /-- `TICK *n` -/
  | tickTimes (n : Nat)
  | nop
  | trigKick (amp : Nat)
  | trigSnare (amp : Nat)
  | trigHhc (amp : Nat)
  | trigHho (amp : Nat)
  | trigClap (amp : Nat)
  | trigTom (amp : Nat)
  | trigCowbell (amp : Nat)
  | setTone (tone : Nat)
  | setDecay (idx : Nat)
  /-- `CMD #word`: a raw word, legal or reserved. -/
  | rawCmd (word : Nat)
  /-- `TRIG.HIHAT #amp`, which is `TRIG.HHC #amp`. -/
  | trigHihat (amp : Nat)
  /-- `SET.DECAYMASK #m`. -/
  | setDecayMask (m : Nat)
  /-- `TRIG.ALL #amp`: six triggers. -/
  | trigAll (amp : Nat)
  deriving DecidableEq, Repr

/-- The voice a command triggers, if it is a trigger. -/
def Instr.voice : Instr → Option Voice
  | .trigKick _ => some .kick
  | .trigSnare _ => some .snare
  | .trigHhc _ => some .hihat
  | .trigHho _ => some .hihat
  | .trigClap _ => some .clap
  | .trigTom _ => some .tom
  | .trigCowbell _ => some .cowbell
  | .nop => none
  | .setTone _ => none
  | .setDecay _ => none

end Sys2Proof
end

