-- ==== Sys2Proof/Decode.lean ====
section
/-! DEFINITION. Command words: the fields (spec/30_encoding.md R59), the opcode map as mask-and-match rows
(R60), the decoder (R127, total by R63, reserved words named by R62), and the encoder. -/

namespace Sys2Proof

/-- `op = cmd[23:20]` (R59). -/
def opField (w : CmdWord) : BitVec 4 := w.extractLsb' 20 4

/-- `sel = cmd[19:16]` (R59). -/
def selField (w : CmdWord) : BitVec 4 := w.extractLsb' 16 4

/-- `data = cmd[15:0]` (R59). -/
def dataField (w : CmdWord) : Word := w.extractLsb' 0 16

/-- What the decoder answers: one of the ten commands, or `Reserved` with its class (R63). -/
inductive Decoded where
  | command (i : Instr)
  | reserved (why : Reserved)
  deriving DecidableEq, Repr

/-- `op == 1`: voice `v = sel[2:0]` and variant `var = sel[3]`; the variant is legal for the Hi-hat only
(R59, R60, R68). -/
def decodeTrigger (sel : BitVec 4) (amp : Word) : Decoded :=
  match sel.toNat with
  | 0 => .command (.trigKick amp)
  | 1 => .command (.trigSnare amp)
  | 2 => .command (.trigHhc amp)
  | 3 => .command (.trigClap amp)
  | 4 => .command (.trigTom amp)
  | 5 => .command (.trigCowbell amp)
  | 10 => .command (.trigHho amp)
  | _ => .reserved .triggerSelector

/-- `op == 2`: the two parameter registers (R60); `SET.DECAY` needs `data[15:2] = 0` (R62, R130). -/
def decodeParameter (sel : BitVec 4) (data : Word) : Decoded :=
  match sel.toNat with
  | 0 => .command (.setTone data)
  | 1 => if data.toNat < 4 then .command (.setDecay (data.extractLsb' 0 2)) else .reserved .decayData
  | _ => .reserved .parameterSelector

/-- The decoder: the case split of `CMD(w)` (spec/48_commands.md R127), total on all 2^24 words. -/
def decode (w : CmdWord) : Decoded :=
  if w = 0 then .command .nop
  else if opField w = 1 then decodeTrigger (selField w) (dataField w)
  else if opField w = 2 then decodeParameter (selField w) (dataField w)
  else if opField w = 0 then .reserved .nopBits
  else .reserved .opcode

/-- The instruction a decoder's answer holds. -/
def Decoded.instr? : Decoded → Option Instr
  | .command i => some i
  | .reserved _ => none

/-- A word with these three fields (R59). -/
def assemble (op sel : BitVec 4) (data : Word) : CmdWord := op ++ sel ++ data

/-- The voice number `v` (R68). -/
def Voice.number : Voice → BitVec 3
  | .kick => 0
  | .snare => 1
  | .hihat => 2
  | .clap => 3
  | .tom => 4
  | .cowbell => 5

/-- A trigger word: `op = 1`, `sel = var ++ v`, `data = amp` (R59, R68). -/
def encodeTrigger (var : BitVec 1) (v : Voice) (amp : Word) : CmdWord :=
  assemble 1 (var ++ v.number) amp

/-- The encoder: the word of each command, from the encoding table R60 and the voice numbers R68. -/
def encode : Instr → CmdWord
  | .nop => assemble 0 0 0
  | .trigKick amp => encodeTrigger 0 .kick amp
  | .trigSnare amp => encodeTrigger 0 .snare amp
  | .trigHhc amp => encodeTrigger 0 .hihat amp
  | .trigClap amp => encodeTrigger 0 .clap amp
  | .trigTom amp => encodeTrigger 0 .tom amp
  | .trigCowbell amp => encodeTrigger 0 .cowbell amp
  | .trigHho amp => encodeTrigger 1 .hihat amp
  | .setTone tone => assemble 2 0 tone
  | .setDecay idx => assemble 2 1 (idx.setWidth 16)

/-- One row of the opcode map (R60). -/
structure OpcodeRow where
  mnemonic : String
  value : CmdWord
  mask : CmdWord
  deriving DecidableEq, Repr

/-- "A row matches when `(cmd & mask) == match`" (R60). -/
def OpcodeRow.fits (r : OpcodeRow) (w : CmdWord) : Bool := decide (w &&& r.mask = r.value)

/-- The opcode map as R60 tables it. The decoder does not read it; the laws hold the two against each other. -/
def opcodeRows : List OpcodeRow :=
  [⟨"NOP", 0x000000, 0xFFFFFF⟩,
   ⟨"TRIG.KICK", 0x100000, 0xFF0000⟩,
   ⟨"TRIG.SNARE", 0x110000, 0xFF0000⟩,
   ⟨"TRIG.HHC", 0x120000, 0xFF0000⟩,
   ⟨"TRIG.CLAP", 0x130000, 0xFF0000⟩,
   ⟨"TRIG.TOM", 0x140000, 0xFF0000⟩,
   ⟨"TRIG.COWBELL", 0x150000, 0xFF0000⟩,
   ⟨"TRIG.HHO", 0x1A0000, 0xFF0000⟩,
   ⟨"SET.TONE", 0x200000, 0xFF0000⟩,
   ⟨"SET.DECAY", 0x210000, 0xFFFFFC⟩]

/-- The mnemonic of a command, as R60 spells it. -/
def Instr.mnemonic : Instr → String
  | .nop => "NOP"
  | .trigKick _ => "TRIG.KICK"
  | .trigSnare _ => "TRIG.SNARE"
  | .trigHhc _ => "TRIG.HHC"
  | .trigClap _ => "TRIG.CLAP"
  | .trigTom _ => "TRIG.TOM"
  | .trigCowbell _ => "TRIG.COWBELL"
  | .trigHho _ => "TRIG.HHO"
  | .setTone _ => "SET.TONE"
  | .setDecay _ => "SET.DECAY"

/-- A word no row of R60 matches (R62). -/
def isReserved (w : CmdWord) : Bool := opcodeRows.all fun r => !r.fits w

/-- The command word made of the low `nbits` bits of `w`, every bit above them 0. A command word is one parallel
24-bit word (spec/20_memory.md R46), so bit k of the table's numbering is bit k of the word (log 8). -/
def tableWord (nbits w : Nat) : CmdWord := BitVec.ofNat 24 (w % 2 ^ nbits)

/-- What the decoder reads from that word; none where it is reserved. -/
def decodeTableWord (nbits w : Nat) : Option Instr := (decode (tableWord nbits w)).instr?

end Sys2Proof
end

