-- ==== Sys2Proof/Config.lean ====
section
/-! DEFINITION. The configuration record `Cfg` of spec/00_scope.md R6, with the one instance `cfgRef`
(the spec's `CFG_REF`) that is the value of this hardware, and the wave table of spec/20_memory.md R43.
What R7 calls fixed (six voices, the voice order, the widths, the clamp at 255) is no field. -/

namespace Sys2Proof

/-- `T_TICK`: the clock cycles one `TICK` occupies. R6 gives it the value "open": no body, so nothing can be
proved of its value. Only the pin layer reads it (R178); no register depends on it. Log 5. -/
opaque Config.tTick : Nat

/-- Everything the source names without a value and everything a build could vary (R6). A field's type is the
table's legal range where one type says it; the other ranges are `Cfg.wf` (WellFormed.lean). -/
structure Cfg where
  /-- `WAVE`: 128 entries of u8 (R41, R42). -/
  wave : Vector Byte 128
  /-- `LFSR_SEED`, nonzero. -/
  lfsrSeed : Word
  /-- `LFSR_TAPS`. -/
  lfsrTaps : Word
  /-- `KICK_VOL0`. -/
  kickVol0 : Word
  /-- `KICK_SHIFT`, 0..15. -/
  kickShift : Fin 16
  /-- `KICK_SWEEP_SHIFT`, 0..15. -/
  kickSweepShift : Fin 16
  /-- `KICK_DIV`, 1..65535. -/
  kickDiv : Word
  /-- `KICK_LPF_EN`. -/
  kickLpfEn : Bool
  /-- `SN_NVOL0`. -/
  snNvol0 : Word
  /-- `SN_TVOL0`. -/
  snTvol0 : Word
  /-- `SN_NSHIFT`, 0..15. -/
  snNshift : Fin 16
  /-- `SN_TSHIFT`, 0..15. -/
  snTshift : Fin 16
  /-- `SN_PHASE0`. -/
  snPhase0 : Word
  /-- `SN_NOISE_MASK`, of the form 2^n - 1 with n in 1..8. -/
  snNoiseMask : Word
  /-- `HH_VOL0`. -/
  hhVol0 : Word
  /-- `HH_INC1`. -/
  hhInc1 : Word
  /-- `HH_INC2`. -/
  hhInc2 : Word
  /-- `HH_PH1_0`. -/
  hhPh1_0 : Word
  /-- `HH_PH2_0`. -/
  hhPh2_0 : Word
  /-- `HH_SPEED_CLOSED`. -/
  hhSpeedClosed : Byte
  /-- `HH_SPEED_OPEN`. -/
  hhSpeedOpen : Byte
  /-- `HH_SHIFT`, 0..15. -/
  hhShift : Fin 16
  /-- `CL_VOL0`. -/
  clVol0 : Word
  /-- `CL_SHIFT`, 0..15. -/
  clShift : Fin 16
  /-- `CL_BURSTS`, 0..3. -/
  clBursts : BitVec 2
  /-- `CL_ON`, 0..255. -/
  clOn : Byte
  /-- `CL_PERIOD`, 0..254. -/
  clPeriod : Byte
  /-- `TM_VOL0`. -/
  tmVol0 : Word
  /-- `TM_SHIFT`, 0..15. -/
  tmShift : Fin 16
  /-- `TM_SWEEP_SHIFT`, 0..15. -/
  tmSweepShift : Fin 16
  /-- `TM_STEP_OFS`. -/
  tmStepOfs : Word
  /-- `TM_DIV`, 1..65535. -/
  tmDiv : Word
  /-- `TM_PHASE0`. -/
  tmPhase0 : Word
  /-- `CB_VOL0`. -/
  cbVol0 : Word
  /-- `CB_SHIFT`, 0..15. -/
  cbShift : Fin 16
  /-- `CB_BASE`. -/
  cbBase : Word
  /-- `CB_PH1_0`. -/
  cbPh1_0 : Word
  /-- `CB_PH2_0`, different from `CB_PH1_0`. -/
  cbPh2_0 : Word
  /-- `TONE_RESET`. -/
  toneReset : Word
  /-- `DECAY_IDX_RESET`, 0..3. -/
  decayIdxReset : BitVec 2
  /-- `F_S`, in Hz; informative, no rule depends on it. -/
  fS : Nat
  /-- `T_TICK`, clock cycles; informative, read by the pin layer only (R178). -/
  tTick : Nat
  deriving DecidableEq, Repr

/-- Addresses 0..31 of the wave table (R43, rows 0 and 1). -/
def waveRows01 : List Byte :=
  [128, 134, 140, 146, 152, 158, 163, 169, 175, 180, 186, 191, 196, 201, 205, 210,
   214, 218, 222, 226, 229, 233, 236, 238, 241, 243, 245, 246, 248, 249, 249, 250]

/-- Addresses 32..63 (R43, rows 2 and 3). -/
def waveRows23 : List Byte :=
  [250, 250, 249, 249, 248, 246, 245, 243, 241, 238, 236, 233, 229, 226, 222, 218,
   214, 210, 205, 201, 196, 191, 186, 180, 175, 169, 163, 158, 152, 146, 140, 134]

/-- Addresses 64..95 (R43, rows 4 and 5). -/
def waveRows45 : List Byte :=
  [128, 122, 116, 110, 104, 98, 93, 87, 81, 76, 70, 65, 60, 55, 51, 46,
   42, 38, 34, 30, 27, 23, 20, 18, 15, 13, 11, 10, 8, 7, 7, 6]

/-- Addresses 96..127 (R43, rows 6 and 7). -/
def waveRows67 : List Byte :=
  [6, 6, 7, 7, 8, 10, 11, 13, 15, 18, 20, 23, 27, 30, 34, 38,
   42, 46, 51, 55, 60, 65, 70, 76, 81, 87, 93, 98, 104, 110, 116, 122]

/-- The wave table of `CFG_REF`, normative as listed in R43. -/
def waveTable : Vector Byte 128 :=
  ⟨(waveRows01 ++ waveRows23 ++ waveRows45 ++ waveRows67).toArray, rfl⟩

/-- `CFG_REF`: the configuration of this hardware (R6). -/
def cfgRef : Cfg where
  wave := waveTable
  lfsrSeed := 0xACE1
  lfsrTaps := 0xB400
  kickVol0 := 65535
  kickShift := 7
  kickSweepShift := 7
  kickDiv := 20
  kickLpfEn := true
  snNvol0 := 0xC000
  snTvol0 := 0xA000
  snNshift := 7
  snTshift := 6
  snPhase0 := 0
  snNoiseMask := 0x00FF
  hhVol0 := 0x8000
  hhInc1 := 0x4300
  hhInc2 := 0x6900
  hhPh1_0 := 0
  hhPh2_0 := 0
  hhSpeedClosed := 0x01
  hhSpeedOpen := 0x1F
  hhShift := 6
  clVol0 := 0xC000
  clShift := 6
  clBursts := 3
  clOn := 60
  clPeriod := 200
  tmVol0 := 0xE000
  tmShift := 6
  tmSweepShift := 7
  tmStepOfs := 200
  tmDiv := 10
  tmPhase0 := 0
  cbVol0 := 0x9000
  cbShift := 7
  cbBase := 500
  cbPh1_0 := 0
  cbPh2_0 := 0x4000
  toneReset := 700
  decayIdxReset := 0
  fS := 20000
  tTick := Config.tTick

end Sys2Proof
end

