-- ==== Sys2Proof/Machine/State.lean ====
section
/-! DEFINITION. The state of the TinyTR voice engine (spec/10_state.md R13 to R25), its reset value (R31,
spec/70_reset_and_hazards.md R171), and the reasons a run can stop. -/

namespace Sys2Proof.Machine

open Sys2Proof

/-- The Kick's registers `K_*` (R19). -/
structure Kick where
  /-- `K_ACT` -/
  act : Bool
  /-- `K_VOL` -/
  vol : Word
  /-- `K_PHASE` -/
  phase : Word
  /-- `K_STEP` -/
  step : Word
  /-- `K_CNT` -/
  cnt : Byte
  /-- `K_PREV` -/
  prev : Byte
  deriving DecidableEq, Repr

/-- The Snare's registers `S_*` (R20). -/
structure Snare where
  /-- `S_ACT` -/
  act : Bool
  /-- `S_NVOL` -/
  nvol : Word
  /-- `S_TVOL` -/
  tvol : Word
  /-- `S_PHASE` -/
  phase : Word
  /-- `S_CNT` -/
  cnt : Byte
  deriving DecidableEq, Repr

/-- The Hi-hat's registers `H_*` (R21). -/
structure Hihat where
  /-- `H_ACT` -/
  act : Bool
  /-- `H_VOL` -/
  vol : Word
  /-- `H_PH1` -/
  ph1 : Word
  /-- `H_PH2` -/
  ph2 : Word
  /-- `H_SPEED` -/
  speed : Byte
  /-- `H_CNT` -/
  cnt : Byte
  deriving DecidableEq, Repr

/-- The Clap's registers `C_*` (R22). -/
structure Clap where
  /-- `C_ACT` -/
  act : Bool
  /-- `C_VOL` -/
  vol : Word
  /-- `C_STUT` -/
  stut : BitVec 2
  /-- `C_TIMER` -/
  timer : Byte
  /-- `C_CNT` -/
  cnt : Byte
  deriving DecidableEq, Repr

/-- The Tom's registers `T_*` (R24). -/
structure Tom where
  /-- `T_ACT` -/
  act : Bool
  /-- `T_VOL` -/
  vol : Word
  /-- `T_PHASE` -/
  phase : Word
  /-- `T_STEP` -/
  step : Word
  /-- `T_CNT` -/
  cnt : Byte
  deriving DecidableEq, Repr

/-- The Cowbell's registers `B_*` (R25). -/
structure Cowbell where
  /-- `B_ACT` -/
  act : Bool
  /-- `B_VOL` -/
  vol : Word
  /-- `B_PH1` -/
  ph1 : Word
  /-- `B_PH2` -/
  ph2 : Word
  /-- `B_CNT` -/
  cnt : Byte
  deriving DecidableEq, Repr

/-- The whole state: the 37 registers of R13, the pulse on the `out_valid` pin, and the events still to come. -/
structure State where
  /-- `LFSR` (R14). -/
  lfsr : Word
  /-- `TONE` (R15). -/
  tone : Word
  /-- `DECAY_IDX` (R16). -/
  decayIdx : BitVec 2
  /-- `OUT` (R17). -/
  out : Byte
  /-- `FAULT` (R18). -/
  fault : Bool
  kick : Kick
  snare : Snare
  hihat : Hihat
  clap : Clap
  tom : Tom
  cowbell : Cowbell
  /-- The pulse on the `out_valid` pin (spec/30_encoding.md R57, R66): a `TICK` has written `OUT` and the clock cycle
  that shows it is not over. A pin, not a register. Log 3. -/
  outValid : Bool
  /-- The events the host and the platform have still to deliver, the next one first (spec/00_scope.md R11,
  spec/20_memory.md R52). The model's own field; the engine never reads past its head. Log 1. -/
  pending : List Event
  deriving DecidableEq, Repr

/-- A step never stops with a fault: the spec's one fault, `IllegalCommand`, sets the `FAULT` register and the run
goes on (spec/60_exceptions.md R150, R152). So there is no constructor. -/
inductive Fault where
  deriving DecidableEq, Repr

/-- Why the model has no next move. No step and no command raises one of these; all but the first are raised by the
functions that read pins and whole traces, where spec/93_implementation_defined.md says `refuse`. Each is safe:
it stops where the hardware might go on. -/
inductive Refusal where
  /-- Raised by an arm of `exec` whose command has no meaning yet. There is none. Safe. -/
  | notModelled (mnemonic : String)
  /-- Raised by the pin layer: a `tick` strobe before the previous `TICK` has finished (R178, U2). Safe. -/
  | tickOverrun
  /-- Raised by the pin layer: the host changed or dropped an offered command before `cmd_ready` (R147, U3). Safe. -/
  | unstableCommand
  /-- Raised by trace evaluation: the trace does not begin with `RESET` (R174, U4). Safe. -/
  | noReset
  /-- Raised by trace evaluation: a `Cfg` outside the ranges of R6 (U10). Safe. -/
  | cfgOutOfRange
  deriving DecidableEq, Repr

/-- The reset state `S0` for a configuration (R31, R171), with the output pin low (R170) and no event pending. -/
def State.resetWith (c : Cfg) : State where
  lfsr := c.lfsrSeed
  tone := c.toneReset
  decayIdx := c.decayIdxReset
  out := 0
  fault := false
  kick := { act := false, vol := 0, phase := 0, step := 0, cnt := 0, prev := 0 }
  snare := { act := false, nvol := 0, tvol := 0, phase := 0, cnt := 0 }
  hihat := { act := false, vol := 0, ph1 := 0, ph2 := 0, speed := 0, cnt := 0 }
  clap := { act := false, vol := 0, stut := 0, timer := 0, cnt := 0 }
  tom := { act := false, vol := 0, phase := 0, step := 0, cnt := 0 }
  cowbell := { act := false, vol := 0, ph1 := 0, ph2 := 0, cnt := 0 }
  outValid := false
  pending := []

/-- The machine right after reset (R171), for this hardware's configuration. -/
def State.reset : State := State.resetWith cfgRef

end Sys2Proof.Machine
end

