-- ==== Sys2Proof/Machine/Flags.lean ====
section
/-! DEFINITION. The only flags: the six `*_ACT` bits and `FAULT` (spec/10_state.md R27). No arithmetic sets a
carry, overflow, zero or sign flag: there are none. -/

namespace Sys2Proof.Machine

open Sys2Proof

/-- A voice's `*_ACT` after a gate evaluation: cleared exactly when the gate fired and the volume after the decay
is 0 (R27, spec/41_mixer_tick.md R92). `silent` says the voice's volume register, or both of the Snare's, are 0. -/
def actAfterGate (act fires silent : Bool) : Bool := if fires && silent then false else act

/-- `FAULT` after a command was taken: sticky (R18, spec/60_exceptions.md R152). -/
def faultAfter (fault illegal : Bool) : Bool := fault || illegal

/-- A voice's `*_ACT` bit by the voice's name. -/
def State.active (s : State) : Voice → Bool
  | .kick => s.kick.act
  | .snare => s.snare.act
  | .hihat => s.hihat.act
  | .clap => s.clap.act
  | .tom => s.tom.act
  | .cowbell => s.cowbell.act

/-- "Quiescent": all six `*_ACT` bits 0 (spec/70_reset_and_hazards.md R183). -/
def State.quiescent (s : State) : Bool :=
  !s.kick.act && !s.snare.act && !s.hihat.act && !s.clap.act && !s.tom.act && !s.cowbell.act

end Sys2Proof.Machine
end

