-- ==== Sys2Proof/Machine/Operands.lean ====
section
/-! DEFINITION. The operand forms: the wave-table read and its index (spec/20_memory.md R44, R45), the shared
decay mask (spec/10_state.md R23), noise slices (spec/40_noise_lfsr.md R83), the volume fraction `Scale8`
(spec/41_mixer_tick.md R93) and the trigger's `ScaleVol` (spec/48_commands.md R131). -/

namespace Sys2Proof.Machine

open Sys2Proof

/-- `DecayMask()`: `(1 << (DECAY_IDX + 1)) - 1` (R23). -/
def decayMask (idx : BitVec 2) : Byte := u8 ((1 <<< (idx.toNat + 1)) - 1)

/-- `WaveIndex(ph)`: `(ph >> 8) & 0x7F` (R45). -/
def waveIndex (ph : Word) : BitVec 7 := BitVec.ofNat 7 ((ph.toNat >>> 8) &&& 0x7F)

/-- `WAVE[i]` for a 7-bit `i` (R44): no side effect, no out-of-range address. -/
def waveRead (c : Cfg) (i : BitVec 7) : Byte := c.wave[i.toNat]'i.isLt

/-- The table value an oscillator at phase `ph` reads. -/
def waveAt (c : Cfg) (ph : Word) : Byte := waveRead c (waveIndex ph)

/-- `Scale8(x, vol)`: `(x * (vol >> 8)) >> 8`, exact (R93). -/
def scale8 (x : Nat) (vol : Word) : Nat := (x * (vol.toNat >>> 8)) >>> 8

/-- `ScaleVol(v0, amp)`: `(v0 * (amp + 1)) >> 16` (R131). -/
def scaleVol (v0 amp : Word) : Word := u16 ((v0.toNat * (amp.toNat + 1)) >>> 16)

/-- `TONE >> 1`, the Snare's phase increment (R107) and the Cowbell's share of `base` (R125). -/
def halfTone (tone : Word) : Nat := tone.toNat >>> 1

/-- The Snare's noise bits: `LFSR & SN_NOISE_MASK` (R83, R107). -/
def snareNoiseBits (c : Cfg) (lfsr : Word) : Nat := lfsr.toNat &&& c.snNoiseMask.toNat

/-- The Hi-hat's noise term: `LFSR & 0x7F` (R83, R112). -/
def hihatNoiseBits (lfsr : Word) : Nat := lfsr.toNat &&& 0x7F

/-- A square wave of 0 or 128 from bit 15 of a phase (R112). -/
def square (ph : Word) : Nat := if ph.getLsbD 15 then 128 else 0

/-- The Hi-hat's metallic term: `(sq1 ^ sq2) >> 1`, 0 or 64 (R112). -/
def metallic (ph1 ph2 : Word) : Nat := (square ph1 ^^^ square ph2) >>> 1

/-- The Cowbell's `base = (CB_BASE + (TONE >> 1)) mod 65536` (R125). -/
def cowbellBase (c : Cfg) (tone : Word) : Word := u16 (c.cbBase.toNat + halfTone tone)

/-- A phase advanced by `inc`, modulo 65536 (spec/70_reset_and_hazards.md R180). -/
def advancePhase (ph : Word) (inc : Nat) : Word := u16 (ph.toNat + inc)

end Sys2Proof.Machine
end

