-- ==== Sys2Proof/Machine/Ops.lean ====
section
/-! DEFINITION. The operations the voices and the commands share: `LfsrStep` (spec/40_noise_lfsr.md R80),
`GateFires`, `Decay`, `Sweep` and the idle voice's early return (spec/41_mixer_tick.md R91, R92, R94, R95),
taking the `IllegalCommand` exception (spec/60_exceptions.md R152), `RESET` (spec/70_reset_and_hazards.md R170),
and the way an event comes in. There is no return from an exception (R156), so none stands here. -/

namespace Sys2Proof.Machine

open Sys2Proof

/-- The bit `LfsrStep` shifts out (R80). -/
def lfsrBit (l : Word) : Bool := l.getLsbD 0

/-- The register after `LfsrStep`: a logical shift right, then the taps if the bit shifted out was 1 (R80). -/
def lfsrNext (c : Cfg) (l : Word) : Word :=
  if lfsrBit l then (l >>> 1) ^^^ c.lfsrTaps else l >>> 1

/-- The gate counter after `GateFires`: incremented modulo 256 (R91). -/
def gateCount (cnt : Byte) : Byte := u8 (cnt.toNat + 1)

/-- What `GateFires(CNT, mask)` answers: the incremented counter is tested (R91). -/
def gateFires (cnt mask : Byte) : Bool := decide (gateCount cnt &&& mask = 0)

/-- `max(1, v >> sh)`: the amount of one decay or sweep step (R92, R95). -/
def decrement (v : Word) (sh : Fin 16) : Nat := max 1 (v.toNat >>> sh.val)

/-- `Decay(v, sh)`: subtract, clamped at 0 (R92). -/
def decay (v : Word) (sh : Fin 16) : Word :=
  if v.toNat ≤ decrement v sh then 0 else u16 (v.toNat - decrement v sh)

/-- A volume at a gate evaluation: decayed if the gate fires, kept otherwise. -/
def decayIf (fires : Bool) (v : Word) (sh : Fin 16) : Word := if fires then decay v sh else v

/-- `Sweep(STEP, target, sh)`: one conditional subtraction, not clamped to the target (R95). -/
def sweep (step target : Word) (sh : Fin 16) : Word :=
  if target.toNat < step.toNat then u16 (step.toNat - decrement step sh) else step

/-- An inactive voice contributes 0 and reads and writes nothing else; an active one runs all its sub-steps (R94). -/
def whileActive (act : Bool) (s : State) (body : State × I16) : State × I16 :=
  if act then body else (s, 0)

/-- `raise IllegalCommand(w)`: `FAULT <- 1` and nothing else; no handler, no vector, no saved state (R152). -/
def raiseIllegalCommand (s : State) : State := { s with fault := faultAfter s.fault true }

/-- `RESET`: all 37 registers take their reset values at once, `out_valid` is low; the events still to come are not
the engine's to drop (R170; log 9). -/
def resetEngine (c : Cfg) (s : State) : State := { State.resetWith c with pending := s.pending }

/-- The state in which the next event is served: the event has left the pending list. -/
def takeEvent (rest : List Event) (s : State) : State := { s with pending := rest }

/-- A moment between events: no register changes, `out` keeps the last sample, and a pulse on `out_valid` is over
(R66; logs 1 and 3). -/
def idle (s : State) : State := { s with outValid := false }

end Sys2Proof.Machine
end

