-- ==== Sys2Proof/Machine/Clap.lean ====
section
/-! DEFINITION. Voice 3, the Clap: `TRIG.CLAP` and `ClapSample` (spec/45_clap.md R114 to R118). -/

namespace Sys2Proof.Machine

open Sys2Proof

/-- `TRIG.CLAP` for any configuration (R115). Not written: `C_CNT`, `LFSR`. -/
def trigClap (c : Cfg) (amp : Word) (s : State) : State :=
  { s with clap :=
    { s.clap with act := true, vol := scaleVol c.clVol0 amp, stut := c.clBursts, timer := 0 } }

/-- `TRIG.CLAP #amp`. -/
def execTrigClap (amp : Word) (s : State) : Host.Outcome State Fault Refusal :=
  .next (trigClap cfgRef amp s)

/-- Noise gated by the bit shifted out: `(b == 1) ? (C_VOL >> 8) : 0` (R116). -/
def clapNoise (bit : Bool) (vol : Word) : I16 := if bit then u16 (vol.toNat >>> 8) else 0

/-- A Bursting tick (R116, R117): burst while the timer is below `CL_ON`, gap after it, and one silent tick above
`CL_PERIOD` that ends the stutter period. No decay and no gate counting. -/
def clapBurst (c : Cfg) (bit : Bool) (v : Clap) : Clap × I16 :=
  if v.timer.toNat < c.clOn.toNat then
    ({ v with timer := u8 (v.timer.toNat + 1) }, clapNoise bit v.vol)
  else if c.clPeriod.toNat < v.timer.toNat then
    ({ v with stut := v.stut - 1, timer := 0 }, 0)
  else
    ({ v with timer := u8 (v.timer.toNat + 1) }, 0)

/-- A Sustaining tick (R116): gated decay, then the output with the new volume. -/
def clapSustain (c : Cfg) (mask : Byte) (bit : Bool) (v : Clap) : Clap × I16 :=
  let fires := gateFires v.cnt mask
  let vol := decayIf fires v.vol c.clShift
  ({ v with
     act := actAfterGate v.act fires (decide (vol = 0))
     vol := vol
     cnt := gateCount v.cnt },
   clapNoise bit vol)

/-- An active Clap after its `LfsrStep`, which shifted out `bit` (R116). -/
def clapTick (c : Cfg) (mask : Byte) (bit : Bool) (v : Clap) : Clap × I16 :=
  if v.stut ≠ 0 then clapBurst c bit v else clapSustain c mask bit v

/-- `ClapSample()` (R116): the shared register steps first, in both active phases (R81). -/
def clapSample (c : Cfg) (s : State) : State × I16 :=
  whileActive s.clap.act s
    ({ s with
       lfsr := lfsrNext c s.lfsr
       clap := (clapTick c (decayMask s.decayIdx) (lfsrBit s.lfsr) s.clap).1 },
     (clapTick c (decayMask s.decayIdx) (lfsrBit s.lfsr) s.clap).2)

end Sys2Proof.Machine
end

