-- ==== Sys2Proof/Machine/Cowbell.lean ====
section
/-! DEFINITION. Voice 5, the Cowbell: `TRIG.COWBELL` and `CowbellSample` (spec/47_cowbell.md R123 to R126). -/

namespace Sys2Proof.Machine

open Sys2Proof

/-- `TRIG.COWBELL` for any configuration (R124). Not written: `B_CNT`. -/
def trigCowbell (c : Cfg) (amp : Word) (s : State) : State :=
  { s with cowbell :=
    { s.cowbell with act := true, vol := scaleVol c.cbVol0 amp, ph1 := c.cbPh1_0, ph2 := c.cbPh2_0 } }

/-- `TRIG.COWBELL #amp`. -/
def execTrigCowbell (amp : Word) (s : State) : Host.Outcome State Fault Refusal :=
  .next (trigCowbell cfgRef amp s)

/-- The sub-steps of an active Cowbell, in R125's order: decay first, then the two oscillators at 1 and 1.5 times
`base`, averaged and scaled by the new volume. -/
def cowbellTick (c : Cfg) (tone : Word) (mask : Byte) (v : Cowbell) : Cowbell × I16 :=
  let fires := gateFires v.cnt mask
  let vol := decayIf fires v.vol c.cbShift
  let base := cowbellBase c tone
  let ph1 := advancePhase v.ph1 base.toNat
  let ph2 := advancePhase v.ph2 (base.toNat + (base.toNat >>> 1))
  ({ act := actAfterGate v.act fires (decide (vol = 0))
     vol := vol
     ph1 := ph1
     ph2 := ph2
     cnt := gateCount v.cnt },
   u16 (scale8 (((waveAt c ph1).toNat + (waveAt c ph2).toNat) >>> 1) vol))

/-- `CowbellSample()` (R125). -/
def cowbellSample (c : Cfg) (s : State) : State × I16 :=
  whileActive s.cowbell.act s
    ({ s with cowbell := (cowbellTick c s.tone (decayMask s.decayIdx) s.cowbell).1 },
     (cowbellTick c s.tone (decayMask s.decayIdx) s.cowbell).2)

end Sys2Proof.Machine
end

