-- ==== Sys2Proof/Machine/Hihat.lean ====
section
/-! DEFINITION. Voice 2, the Hi-hat: `TRIG.HHC`, `TRIG.HHO` and `HihatSample` (spec/44_hihat.md R109 to R113). -/

namespace Sys2Proof.Machine

open Sys2Proof

/-- What both Hi-hat triggers write; they differ in `H_SPEED` only (R110, R111). Not written: `H_CNT`, `LFSR`. -/
def trigHihat (c : Cfg) (speed : Byte) (amp : Word) (s : State) : State :=
  { s with hihat :=
    { s.hihat with
      act := true, vol := scaleVol c.hhVol0 amp, ph1 := c.hhPh1_0, ph2 := c.hhPh2_0, speed := speed } }

/-- `TRIG.HHC` for any configuration (R110). -/
def trigHhc (c : Cfg) (amp : Word) (s : State) : State := trigHihat c c.hhSpeedClosed amp s

/-- `TRIG.HHO` for any configuration (R111). -/
def trigHho (c : Cfg) (amp : Word) (s : State) : State := trigHihat c c.hhSpeedOpen amp s

/-- `TRIG.HHC #amp`. -/
def execTrigHhc (amp : Word) (s : State) : Host.Outcome State Fault Refusal :=
  .next (trigHhc cfgRef amp s)

/-- `TRIG.HHO #amp`. -/
def execTrigHho (amp : Word) (s : State) : Host.Outcome State Fault Refusal :=
  .next (trigHho cfgRef amp s)

/-- The sub-steps of an active Hi-hat after its `LfsrStep` (R112): phases, squares and output come before the decay,
so the output uses the volume before this tick's decay. The gate mask is `H_SPEED | DecayMask()`. -/
def hihatTick (c : Cfg) (mask : Byte) (lfsr : Word) (v : Hihat) : Hihat × I16 :=
  let ph1 := advancePhase v.ph1 c.hhInc1.toNat
  let ph2 := advancePhase v.ph2 c.hhInc2.toNat
  let fires := gateFires v.cnt (v.speed ||| mask)
  let vol := decayIf fires v.vol c.hhShift
  ({ act := actAfterGate v.act fires (decide (vol = 0))
     vol := vol
     ph1 := ph1
     ph2 := ph2
     speed := v.speed
     cnt := gateCount v.cnt },
   u16 (scale8 (metallic ph1 ph2 + hihatNoiseBits lfsr) v.vol))

/-- `HihatSample()` (R112): the shared register steps first (R81). -/
def hihatSample (c : Cfg) (s : State) : State × I16 :=
  let l := lfsrNext c s.lfsr
  whileActive s.hihat.act s
    ({ s with lfsr := l, hihat := (hihatTick c (decayMask s.decayIdx) l s.hihat).1 },
     (hihatTick c (decayMask s.decayIdx) l s.hihat).2)

end Sys2Proof.Machine
end

