-- ==== Sys2Proof/Machine/Kick.lean ====
section
/-! DEFINITION. Voice 0, the Kick: `TRIG.KICK` and `KickSample` (spec/42_kick.md R100 to R104). -/

namespace Sys2Proof.Machine

open Sys2Proof

/-- `TRIG.KICK` for any configuration (R101). Not written: `K_CNT`, `K_PREV`. -/
def trigKick (c : Cfg) (amp : Word) (s : State) : State :=
  { s with kick :=
    { s.kick with act := true, vol := scaleVol c.kickVol0 amp, step := s.tone, phase := 0 } }

/-- `TRIG.KICK #amp`. -/
def execTrigKick (amp : Word) (s : State) : Host.Outcome State Fault Refusal :=
  .next (trigKick cfgRef amp s)

/-- The optional low-pass stage: the average with the last unfiltered sample (R102). -/
def kickFilter (c : Cfg) (cur : Nat) (prev : Byte) : Nat :=
  if c.kickLpfEn then (cur + prev.toNat) >>> 1 else cur

/-- The sub-steps of an active Kick, in R102's order: sweep, gated decay, phase, output, low-pass memory. -/
def kickTick (c : Cfg) (tone : Word) (mask : Byte) (k : Kick) : Kick × I16 :=
  let step := sweep k.step (u16 (tone.toNat / c.kickDiv.toNat)) c.kickSweepShift
  let fires := gateFires k.cnt mask
  let vol := decayIf fires k.vol c.kickShift
  let phase := advancePhase k.phase step.toNat
  let cur := scale8 (waveAt c phase).toNat vol
  ({ act := actAfterGate k.act fires (decide (vol = 0))
     vol := vol
     phase := phase
     step := step
     cnt := gateCount k.cnt
     prev := if c.kickLpfEn then u8 cur else k.prev },
   u16 (kickFilter c cur k.prev))

/-- `KickSample()` (R102). -/
def kickSample (c : Cfg) (s : State) : State × I16 :=
  whileActive s.kick.act s
    ({ s with kick := (kickTick c s.tone (decayMask s.decayIdx) s.kick).1 },
     (kickTick c s.tone (decayMask s.decayIdx) s.kick).2)

end Sys2Proof.Machine
end

