-- ==== Sys2Proof/Machine/Snare.lean ====
section
/-! DEFINITION. Voice 1, the Snare: `TRIG.SNARE` and `SnareSample` (spec/43_snare.md R105 to R108). -/

namespace Sys2Proof.Machine

open Sys2Proof

/-- `TRIG.SNARE` for any configuration (R106). Not written: `S_CNT`, `LFSR`. -/
def trigSnare (c : Cfg) (amp : Word) (s : State) : State :=
  { s with snare :=
    { s.snare with
      act := true, nvol := scaleVol c.snNvol0 amp, tvol := scaleVol c.snTvol0 amp, phase := c.snPhase0 } }

/-- `TRIG.SNARE #amp`. -/
def execTrigSnare (amp : Word) (s : State) : Host.Outcome State Fault Refusal :=
  .next (trigSnare cfgRef amp s)

/-- The sub-steps of an active Snare after its `LfsrStep`, whose register is `lfsr` (R107): the two volumes decay on
one gate with their own shifts; the flag falls when both are 0. -/
def snareTick (c : Cfg) (tone : Word) (mask : Byte) (lfsr : Word) (v : Snare) : Snare × I16 :=
  let fires := gateFires v.cnt mask
  let nvol := decayIf fires v.nvol c.snNshift
  let tvol := decayIf fires v.tvol c.snTshift
  let phase := advancePhase v.phase (halfTone tone)
  ({ act := actAfterGate v.act fires (decide (nvol = 0) && decide (tvol = 0))
     nvol := nvol
     tvol := tvol
     phase := phase
     cnt := gateCount v.cnt },
   u16 (scale8 (waveAt c phase).toNat tvol + scale8 (snareNoiseBits c lfsr) nvol))

/-- `SnareSample()` (R107): the shared register steps first (R81). -/
def snareSample (c : Cfg) (s : State) : State × I16 :=
  let l := lfsrNext c s.lfsr
  whileActive s.snare.act s
    ({ s with lfsr := l, snare := (snareTick c s.tone (decayMask s.decayIdx) l s.snare).1 },
     (snareTick c s.tone (decayMask s.decayIdx) l s.snare).2)

end Sys2Proof.Machine
end

