-- ==== Sys2Proof/Machine/Tom.lean ====
section
/-! DEFINITION. Voice 4, the Tom: `TRIG.TOM` and `TomSample` (spec/46_tom.md R119 to R122). -/

namespace Sys2Proof.Machine

open Sys2Proof

/-- `TRIG.TOM` for any configuration (R120); the step wraps modulo 65536. Not written: `T_CNT`. -/
def trigTom (c : Cfg) (amp : Word) (s : State) : State :=
  { s with tom :=
    { s.tom with
      act := true, vol := scaleVol c.tmVol0 amp, step := u16 (s.tone.toNat + c.tmStepOfs.toNat),
      phase := c.tmPhase0 } }

/-- `TRIG.TOM #amp`. -/
def execTrigTom (amp : Word) (s : State) : Host.Outcome State Fault Refusal :=
  .next (trigTom cfgRef amp s)

/-- The sub-steps of an active Tom, in R121's order: the Kick's pattern without the low-pass stage. -/
def tomTick (c : Cfg) (tone : Word) (mask : Byte) (v : Tom) : Tom × I16 :=
  let step := sweep v.step (u16 (tone.toNat / c.tmDiv.toNat)) c.tmSweepShift
  let fires := gateFires v.cnt mask
  let vol := decayIf fires v.vol c.tmShift
  let phase := advancePhase v.phase step.toNat
  ({ act := actAfterGate v.act fires (decide (vol = 0))
     vol := vol
     phase := phase
     step := step
     cnt := gateCount v.cnt },
   u16 (scale8 (waveAt c phase).toNat vol))

/-- `TomSample()` (R121). -/
def tomSample (c : Cfg) (s : State) : State × I16 :=
  whileActive s.tom.act s
    ({ s with tom := (tomTick c s.tone (decayMask s.decayIdx) s.tom).1 },
     (tomTick c s.tone (decayMask s.decayIdx) s.tom).2)

end Sys2Proof.Machine
end

