-- ==== Sys2Proof/Machine/Mixer.lean ====
section
/-! DEFINITION. The event `TICK`: the six voices in their fixed order and the mix (spec/41_mixer_tick.md R86 to R90). -/

namespace Sys2Proof.Machine

open Sys2Proof

/-- What the six micro-operations of one `TICK` leave behind: the state and the six contributions `c0`..`c5`. -/
structure VoicePass where
  state : State
  c0 : I16
  c1 : I16
  c2 : I16
  c3 : I16
  c4 : I16
  c5 : I16
  deriving DecidableEq, Repr

/-- The six voices, each run to completion before the next: Kick, Snare, Hi-hat, Clap, Tom, Cowbell (R87). -/
def runVoices (c : Cfg) (s : State) : VoicePass :=
  let r0 := kickSample c s
  let r1 := snareSample c r0.1
  let r2 := hihatSample c r1.1
  let r3 := clapSample c r2.1
  let r4 := tomSample c r3.1
  let r5 := cowbellSample c r4.1
  { state := r5.1, c0 := r0.2, c1 := r1.2, c2 := r2.2, c3 := r3.2, c4 := r4.2, c5 := r5.2 }

/-- The contribution of a voice in this pass. -/
def VoicePass.contribution (p : VoicePass) : Voice → I16
  | .kick => p.c0
  | .snare => p.c1
  | .hihat => p.c2
  | .clap => p.c3
  | .tom => p.c4
  | .cowbell => p.c5

/-- The sample micro-operation of a voice (spec/00_scope.md R4). -/
def sampleOf (c : Cfg) : Voice → State → State × I16
  | .kick => kickSample c
  | .snare => snareSample c
  | .hihat => hihatSample c
  | .clap => clapSample c
  | .tom => tomSample c
  | .cowbell => cowbellSample c

/-- The micro-operations of these voices, one after another, with each one's contribution: the comparison R87 makes
between the fixed call order and any other. A `TICK` uses `runVoices`. -/
def runOrder (c : Cfg) : List Voice → State → State × List I16
  | [], s => (s, [])
  | v :: rest, s => ((runOrder c rest (sampleOf c v s).1).1, (sampleOf c v s).2 :: (runOrder c rest (sampleOf c v s).1).2)

/-- The signed 16-bit accumulator (R88). -/
def mixSum (p : VoicePass) : I16 := p.c0 + p.c1 + p.c2 + p.c3 + p.c4 + p.c5

/-- The headroom shift, arithmetic, and the clamp to 0..255 (R89). The lower clamp is the hardware's too. -/
def clampSample (acc : I16) : Byte :=
  let m := (acc.sshiftRight 1).toInt
  if 255 < m then 255 else if m < 0 then 0 else BitVec.ofInt 8 m

/-- `TICK` (R86): `OUT` is written and `out_valid` pulses on every tick (R90). -/
def tick (c : Cfg) (s : State) : State :=
  { (runVoices c s).state with out := clampSample (mixSum (runVoices c s)), outValid := true }

end Sys2Proof.Machine
end

