-- ==== Sys2Proof/Machine/Parameters.lean ====
section
/-! DEFINITION. `NOP` and the two parameter writes (spec/48_commands.md R128 to R130). -/

namespace Sys2Proof.Machine

open Sys2Proof

/-- `NOP`: no register changes (R128). -/
def execNop (s : State) : Host.Outcome State Fault Refusal := .next s

/-- `TONE <- tone`, all 16 bits in one atomic update (R129, R176). -/
def setTone (tone : Word) (s : State) : State := { s with tone := tone }

/-- `SET.TONE #tone`. -/
def execSetTone (tone : Word) (s : State) : Host.Outcome State Fault Refusal := .next (setTone tone s)

/-- `DECAY_IDX <- idx`; the gate counters are not touched (R130). -/
def setDecay (idx : BitVec 2) (s : State) : State := { s with decayIdx := idx }

/-- `SET.DECAY #idx`. -/
def execSetDecay (idx : BitVec 2) (s : State) : Host.Outcome State Fault Refusal := .next (setDecay idx s)

end Sys2Proof.Machine
end

