-- ==== Sys2Proof/Machine/Dispatch.lean ====
section
/-! DEFINITION. The dispatch of a decoded command to its meaning: one arm per row of spec/opcode_table.json. -/

namespace Sys2Proof.Machine

open Sys2Proof

def exec (i : Instr) (s : State) : Host.Outcome State Fault Refusal :=
  match i with
  | .nop => Sys2Proof.Machine.execNop s
  | .trigKick amp => Sys2Proof.Machine.execTrigKick amp s
  | .trigSnare amp => Sys2Proof.Machine.execTrigSnare amp s
  | .trigHhc amp => Sys2Proof.Machine.execTrigHhc amp s
  | .trigClap amp => Sys2Proof.Machine.execTrigClap amp s
  | .trigTom amp => Sys2Proof.Machine.execTrigTom amp s
  | .trigCowbell amp => Sys2Proof.Machine.execTrigCowbell amp s
  | .trigHho amp => Sys2Proof.Machine.execTrigHho amp s
  | .setTone tone => Sys2Proof.Machine.execSetTone tone s
  | .setDecay idx => Sys2Proof.Machine.execSetDecay idx s

end Sys2Proof.Machine
end

