-- ==== Sys2Proof/Machine/Events.lean ====
section
/-! DEFINITION. The three events (spec/00_scope.md R4): `CMD(w)` (spec/48_commands.md R127), `TICK`, `RESET`. -/

namespace Sys2Proof.Machine

open Sys2Proof

/-- `CMD(w)`: decode, then the command or `IllegalCommand` (R127). Total: every word takes one branch. -/
def runCommand (w : CmdWord) (s : State) : Host.Outcome State Fault Refusal :=
  match decode w with
  | .command i => exec i s
  | .reserved _ => .next (raiseIllegalCommand s)

/-- One event, atomically (spec/20_memory.md R50). -/
def runEvent (e : Event) (s : State) : Host.Outcome State Fault Refusal :=
  match e with
  | .reset => .next (resetEngine cfgRef s)
  | .tick => .next (tick cfgRef s)
  | .cmd w => runCommand w s

/-- The next pending event, or an idle moment when none is pending (log 1). -/
def runNext (s : State) : Host.Outcome State Fault Refusal :=
  match s.pending with
  | [] => .next (idle s)
  | e :: rest => runEvent e (takeEvent rest s)

/-- `s` with the command word of the low `nbits` bits of `w` offered before every other event. -/
def offerTableWord (nbits w : Nat) (s : State) : State :=
  { s with pending := .cmd (tableWord nbits w) :: s.pending }

end Sys2Proof.Machine
end

