-- ==== Sys2Proof/Machine/Step.lean ====
section
/-! DEFINITION. One step of the machine: one event (spec/00_scope.md R5, "A model has one step per event"). -/

namespace Sys2Proof.Machine

open Sys2Proof

/-- One step serves the next pending event. -/
def step (s : State) : Host.Outcome State Fault Refusal := runNext s

/-- `s` with a command word placed where `step` takes its next event: at the head of the pending events. The engine
fetches nothing (R26); a program is the host's sequence of command words (log 2). -/
def State.withFetchWord (s : State) (nbits w : Nat) : State := offerTableWord nbits w s

end Sys2Proof.Machine
end

