-- ==== Sys2Proof/WellFormed.lean ====
section
/-! DEFINITION. What makes a configuration and a trace line well formed. An `Instr` needs no check: its operand
types are the widths of spec/30_encoding.md R61, so every term of `Instr` is a command (Decode.lean shows each
has a word, and which words are reserved). Numerals do need one: those of a trace line (R64, R65) and the
fields of a `Cfg` (spec/00_scope.md R6, spec/93_implementation_defined.md U10). -/

namespace Sys2Proof

/-- `m` has the form 2^n - 1 for some n in `lo`..8. -/
def isGateMask (lo : Nat) (m : Nat) : Bool :=
  (List.range 9).any fun n => decide (lo ≤ n) && decide (m = 2 ^ n - 1)

/-- A configuration within the ranges of R6's table that the field types do not already say. That the two
Hi-hat speed masks have the form 2^n - 1 is U10's (log 6). -/
def Cfg.wf (c : Cfg) : Bool :=
  decide (c.lfsrSeed ≠ 0)
    && decide (c.kickDiv ≠ 0)
    && isGateMask 1 c.snNoiseMask.toNat
    && isGateMask 0 c.hhSpeedClosed.toNat
    && isGateMask 0 c.hhSpeedOpen.toNat
    && decide (c.clPeriod.toNat ≤ 254)
    && decide (c.tmDiv ≠ 0)
    && decide (c.cbPh2_0 ≠ c.cbPh1_0)

/-- The masks `SET.DECAYMASK` accepts, each with its index (R65); `none` for any other. -/
def decayIndexOfMask : Nat → Option (BitVec 2)
  | 1 => some 0
  | 3 => some 1
  | 7 => some 2
  | 15 => some 3
  | _ => none

/-- A trace line whose numerals fit: `amp` and `tone` 16 bits, `idx` 0..3, a raw word 24 bits, a decay mask in
{1, 3, 7, 15} (R64, R65). An ill-formed line spells no word and is no event. -/
def TraceLine.wf : TraceLine → Bool
  | .reset => true
  | .tick => true
  | .tickTimes _ => true
  | .nop => true
  | .trigKick amp => decide (amp < 2 ^ 16)
  | .trigSnare amp => decide (amp < 2 ^ 16)
  | .trigHhc amp => decide (amp < 2 ^ 16)
  | .trigHho amp => decide (amp < 2 ^ 16)
  | .trigClap amp => decide (amp < 2 ^ 16)
  | .trigTom amp => decide (amp < 2 ^ 16)
  | .trigCowbell amp => decide (amp < 2 ^ 16)
  | .setTone tone => decide (tone < 2 ^ 16)
  | .setDecay idx => decide (idx < 4)
  | .rawCmd word => decide (word < 2 ^ 24)
  | .trigHihat amp => decide (amp < 2 ^ 16)
  | .setDecayMask m => (decayIndexOfMask m).isSome
  | .trigAll amp => decide (amp < 2 ^ 16)

end Sys2Proof
end

