-- ==== Sys2Proof/Machine/Trace.lean ====
section
/-! DEFINITION. Traces (spec/00_scope.md R11): what a finite sequence of events does for ANY configuration (R6 makes
`Cfg` an argument of the model; `step` is the instance `cfgRef`), its output stream, and what a line of a textual
trace stands for (spec/30_encoding.md R64, R65). -/

namespace Sys2Proof.Machine

open Sys2Proof

/-- The effect of a command under a configuration. -/
def performWith (c : Cfg) (i : Instr) (s : State) : State :=
  match i with
  | .nop => s
  | .trigKick amp => trigKick c amp s
  | .trigSnare amp => trigSnare c amp s
  | .trigHhc amp => trigHhc c amp s
  | .trigClap amp => trigClap c amp s
  | .trigTom amp => trigTom c amp s
  | .trigCowbell amp => trigCowbell c amp s
  | .trigHho amp => trigHho c amp s
  | .setTone tone => setTone tone s
  | .setDecay idx => setDecay idx s

/-- `CMD(w)` under a configuration (R127). -/
def commandWith (c : Cfg) (w : CmdWord) (s : State) : State :=
  match decode w with
  | .command i => performWith c i s
  | .reserved _ => raiseIllegalCommand s

/-- One event under a configuration. -/
def eventWith (c : Cfg) (e : Event) (s : State) : State :=
  match e with
  | .reset => resetEngine c s
  | .tick => tick c s
  | .cmd w => commandWith c w s

/-- The state after a trace: the events' rules applied left to right (R11, spec/20_memory.md R50). -/
def traceWith (c : Cfg) : List Event → State → State
  | [], s => s
  | e :: rest, s => traceWith c rest (eventWith c e s)

/-- The output stream of a trace: the values of `OUT` its `TICK`s write, one per `TICK` (R11). -/
def outputStream (c : Cfg) : List Event → State → List Byte
  | [], _ => []
  | .tick :: rest, s => (tick c s).out :: outputStream c rest (tick c s)
  | .reset :: rest, s => outputStream c rest (eventWith c .reset s)
  | .cmd w :: rest, s => outputStream c rest (eventWith c (.cmd w) s)

/-- What a trace means to an observer: its final state and its output stream. A configuration out of range and a
trace that does not begin with `RESET` are refused (spec/93_implementation_defined.md U10, U4). -/
def evalTrace (c : Cfg) (tr : List Event) : Except Refusal (State × List Byte) :=
  if c.wf then
    match tr with
    | .reset :: rest =>
      .ok (traceWith c rest (State.resetWith c), outputStream c rest (State.resetWith c))
    | _ => .error .noReset
  else .error .cfgOutOfRange

/-- `n` ticks with no other event between them. -/
def ticks (c : Cfg) : Nat → State → State
  | 0, s => s
  | n + 1, s => ticks c n (tick c s)

/-- The event of a command line: `CMD(w)` with `w` assembled by R59 to R61. -/
def commandEvent (i : Instr) : Event := .cmd (encode i)

/-- The events of a well-formed line (R64, R65). -/
def expandLine : TraceLine → List Event
  | .reset => [.reset]
  | .tick => [.tick]
  | .tickTimes n => List.replicate n .tick
  | .nop => [commandEvent .nop]
  | .trigKick amp => [commandEvent (.trigKick (u16 amp))]
  | .trigSnare amp => [commandEvent (.trigSnare (u16 amp))]
  | .trigHhc amp => [commandEvent (.trigHhc (u16 amp))]
  | .trigHho amp => [commandEvent (.trigHho (u16 amp))]
  | .trigClap amp => [commandEvent (.trigClap (u16 amp))]
  | .trigTom amp => [commandEvent (.trigTom (u16 amp))]
  | .trigCowbell amp => [commandEvent (.trigCowbell (u16 amp))]
  | .setTone tone => [commandEvent (.setTone (u16 tone))]
  | .setDecay idx => [commandEvent (.setDecay (BitVec.ofNat 2 idx))]
  | .rawCmd word => [.cmd (BitVec.ofNat 24 word)]
  | .trigHihat amp => [commandEvent (.trigHhc (u16 amp))]
  | .setDecayMask m => ((decayIndexOfMask m).map fun idx => commandEvent (.setDecay idx)).toList
  | .trigAll amp =>
    [commandEvent (.trigKick (u16 amp)), commandEvent (.trigSnare (u16 amp)),
     commandEvent (.trigHhc (u16 amp)), commandEvent (.trigClap (u16 amp)),
     commandEvent (.trigTom (u16 amp)), commandEvent (.trigCowbell (u16 amp))]

/-- The events of a line; none for an ill-formed one, which spells no word (R64). -/
def lineEvents (l : TraceLine) : Option (List Event) := if l.wf then some (expandLine l) else none

/-- The events of a whole textual trace; none if a line is ill-formed. -/
def linesEvents : List TraceLine → Option (List Event)
  | [] => some []
  | l :: rest =>
    match lineEvents l, linesEvents rest with
    | some es, some more => some (es ++ more)
    | _, _ => none

end Sys2Proof.Machine
end

