-- ==== Sys2Proof/Machine/Pins.lean ====
section
/-! DEFINITION. The pins (spec/30_encoding.md R57) and how they give rise to events (R58, R67, spec/20_memory.md
R52, spec/60_exceptions.md R155, spec/70_reset_and_hazards.md R170, R178). A step works on events, not pins (R58);
this file is the way from sampled pins to a list of events, from a state to the output pins, and through whole clock
cycles, which is where `out_valid` is high for one cycle per `TICK` (R66). -/

namespace Sys2Proof.Machine

open Sys2Proof

/-- The input pins as sampled in one clock cycle (R57). -/
structure PinCycle where
  /-- `rst_n`, active low. -/
  rstN : Bool
  /-- `tick`, the sample strobe. -/
  tick : Bool
  /-- `cmd_valid`. -/
  cmdValid : Bool
  /-- `cmd`. -/
  cmd : CmdWord
  deriving DecidableEq, Repr

/-- What earlier cycles leave for the reading of the next one: the clock cycles since the last strobe, and a word
offered but not yet taken. -/
structure PinWatch where
  sinceStrobe : Option Nat
  offered : Option CmdWord
  deriving DecidableEq, Repr

/-- The output pins (R57). -/
structure OutputPins where
  out : Byte
  outValid : Bool
  fault : Bool
  cmdReady : Bool
  deriving DecidableEq, Repr

/-- No strobe and no offered word yet. -/
def PinWatch.fresh : PinWatch := { sinceStrobe := none, offered := none }

/-- The engine is still working on an earlier `TICK`: fewer than `T_TICK` cycles since its strobe (R178). -/
def engineBusy (c : Cfg) (w : PinWatch) : Bool :=
  match w.sinceStrobe with
  | none => false
  | some n => decide (n < c.tTick)

/-- `cmd_ready`: low while the engine is working on a `TICK` and during reset (R67). -/
def cmdReady (c : Cfg) (w : PinWatch) (p : PinCycle) : Bool := p.rstN && !engineBusy c w

/-- An offered word is still there, unchanged (R147). -/
def offerStable (w : PinWatch) (p : PinCycle) : Bool :=
  match w.offered with
  | none => true
  | some word => p.cmdValid && decide (p.cmd = word)

/-- The events of one cycle, in order: `RESET` over everything, then `TICK`, then `CMD` (R155, R52). During reset
strobes and words are ignored, not queued (R170). An overrun (U2) and an unstable offer (U3) are refused. -/
def cycleEvents (c : Cfg) (w : PinWatch) (p : PinCycle) : Except Refusal (List Event) :=
  if !p.rstN then .ok [.reset]
  else if !offerStable w p then .error .unstableCommand
  else if p.tick && engineBusy c w then .error .tickOverrun
  else
    .ok ((if p.tick then [.tick] else []) ++ (if p.cmdValid && cmdReady c w p then [.cmd p.cmd] else []))

/-- The watch after a cycle. That `RESET` forgets it, so that after release the engine is free, a strobe is no overrun
and an offer made during reset binds nobody, is the model's DESIGN CHOICE: R67 and R178 do not say whether a reset ends
the work on a `TICK` (log 16). -/
def watchAfter (c : Cfg) (w : PinWatch) (p : PinCycle) : PinWatch :=
  if !p.rstN then PinWatch.fresh
  else
    { sinceStrobe := if p.tick then some 1 else w.sinceStrobe.map (· + 1)
      offered := if p.cmdValid && !cmdReady c w p then some p.cmd else none }

/-- The events of a sequence of cycles, or the first refusal. -/
def pinEvents (c : Cfg) : PinWatch → List PinCycle → Except Refusal (List Event)
  | _, [] => .ok []
  | w, p :: rest =>
    match cycleEvents c w p, pinEvents c (watchAfter c w p) rest with
    | .ok es, .ok more => .ok (es ++ more)
    | .error r, _ => .error r
    | .ok _, .error r => .error r

/-- The output pins in a cycle: `out` always shows `OUT`, `fault` shows `FAULT` (R57, R66); all are 0 while `rst_n`
is low (R170). -/
def outputPins (c : Cfg) (w : PinWatch) (p : PinCycle) (s : State) : OutputPins :=
  if p.rstN then { out := s.out, outValid := s.outValid, fault := s.fault, cmdReady := cmdReady c w p }
  else { out := 0, outValid := false, fault := false, cmdReady := false }

/-- The engine between two clock cycles, with what earlier cycles leave for the pins. -/
structure PinMachine where
  state : State
  watch : PinWatch
  deriving DecidableEq, Repr

/-- One clock cycle: what the output pins show in it, and the machine after it. The cycle's events take effect at its
end: a `TICK` writes `OUT` in the cycle of its strobe, so its `out_valid` is the next cycle's, whatever command is taken
in the strobe's own cycle (R66; that no later cycle of the `TICK` writes `OUT` is the model's choice, log 17). -/
def clockCycle (c : Cfg) (m : PinMachine) (p : PinCycle) : Except Refusal (OutputPins × PinMachine) :=
  match cycleEvents c m.watch p with
  | .error r => .error r
  | .ok es =>
    .ok (outputPins c m.watch p m.state,
      { state := traceWith c es (idle m.state), watch := watchAfter c m.watch p })

/-- The output pins of a sequence of clock cycles, cycle by cycle, and the machine after them; or the first refusal. -/
def clockCycles (c : Cfg) : PinMachine → List PinCycle → Except Refusal (List OutputPins × PinMachine)
  | m, [] => .ok ([], m)
  | m, p :: rest =>
    match clockCycle c m p with
    | .error r => .error r
    | .ok (o, m') =>
      match clockCycles c m' rest with
      | .error r => .error r
      | .ok (os, last) => .ok (o :: os, last)

/-- The sample the next clock cycle marks with `out_valid`, if it marks one. -/
def State.markedSample (s : State) : List Byte := if s.outValid then [s.out] else []

/-- What a consumer takes from the output pins: `out` in every cycle whose `out_valid` is high (R66). -/
def consumedSamples : List OutputPins → List Byte
  | [] => []
  | o :: rest => (if o.outValid then [o.out] else []) ++ consumedSamples rest

/-- `s` with the events of the sampled cycles delivered after those already pending. The registers follow from this;
which cycle shows which output pins is `clockCycles`'. -/
def deliverPins (c : Cfg) (w : PinWatch) (ps : List PinCycle) (s : State) : Except Refusal State :=
  match pinEvents c w ps with
  | .ok es => .ok { s with pending := s.pending ++ es }
  | .error r => .error r

end Sys2Proof.Machine
end

