-- ==== Sys2Proof/Machine/RefHost.lean ====
section
/-! DEFINITION. The reference host (spec/49_host_reference.md R141 to R149): Trigger Detector, Parameter Mapper and
Voice Selector. It is outside the engine (spec/00_scope.md R3) and no part of `State` or `step`; it is here because
what it issues is what crosses the command port. -/

namespace Sys2Proof.Machine

open Sys2Proof

/-- The host's parameters; the spec leaves `ACC_BASE`, `ACC_K` and `HH_VARIANT` open
(spec/92_eei_decisions.md, open parameters), so every function takes them as an argument (log 11). -/
structure HostCfg where
  /-- `ON_THRESHOLD` -/
  onThreshold : Byte
  /-- `OFF_THRESHOLD` -/
  offThreshold : Byte
  /-- `ACC_BASE` -/
  accBase : Nat
  /-- `ACC_K` -/
  accK : Nat
  /-- `HH_VARIANT`: true if the host sends `TRIG.HHO` for the Hi-hat. -/
  hhOpen : Bool
  deriving DecidableEq, Repr

/-- The host's state: the detector's gate (R141), the selector's index and its previous raw level (R146). -/
structure RefHost where
  gate : Bool
  voice : Fin 6
  prevLevel : Bool
  deriving DecidableEq, Repr

/-- The reference host's start: gate low as in R149's example, voice 0 (R146), the input idle high (log 11). -/
def RefHost.start : RefHost := { gate := false, voice := 0, prevLevel := true }

/-- Hysteresis: the logical state after one sampled level; both comparisons are strict (R141). -/
def detectGate (h : HostCfg) (gate : Bool) (v : Byte) : Bool :=
  if h.onThreshold.toNat < v.toNat then true
  else if v.toNat < h.offThreshold.toNat then false
  else gate

/-- The accent amplitude: `min(65535, ACC_BASE + (v - ON_THRESHOLD) * ACC_K)` (R142). -/
def accentAmp (h : HostCfg) (v : Byte) : Word :=
  u16 (min 65535 (h.accBase + (v.toNat - h.onThreshold.toNat) * h.accK))

/-- The trigger for the selected voice (R143). -/
def triggerOf (h : HostCfg) (voice : Fin 6) (amp : Word) : Instr :=
  match voice with
  | 0 => .trigKick amp
  | 1 => .trigSnare amp
  | 2 => if h.hhOpen then .trigHho amp else .trigHhc amp
  | 3 => .trigClap amp
  | 4 => .trigTom amp
  | 5 => .trigCowbell amp

/-- One sampled level: a rising edge, and nothing else, issues the selected voice's trigger (R141, R143). -/
def onLevel (h : HostCfg) (r : RefHost) (v : Byte) : RefHost × Option Instr :=
  let gate := detectGate h r.gate v
  ({ r with gate := gate }, if gate && !r.gate then some (triggerOf h r.voice (accentAmp h v)) else none)

/-- The logical states and the triggers a sequence of levels gives. -/
def onLevels (h : HostCfg) : RefHost → List Byte → List Bool × List Instr
  | _, [] => ([], [])
  | r, v :: rest =>
    ((onLevel h r v).1.gate :: (onLevels h (onLevel h r v).1 rest).1,
     (onLevel h r v).2.toList ++ (onLevels h (onLevel h r v).1 rest).2)

/-- The decay index of a raw reading: `min(raw_decay >> 6, 2)` (R144). -/
def decayIndexOf (raw : Byte) : BitVec 2 := BitVec.ofNat 2 (min (raw.toNat >>> 6) 2)

/-- `SET.DECAY #index` for a raw reading (R144). -/
def mapDecay (raw : Byte) : Instr := .setDecay (decayIndexOf raw)

/-- `SET.TONE #tone` for a raw reading: `tone = 700 + raw_tone * 4` (R145). -/
def mapTone (raw : Byte) : Instr := .setTone (u16 (700 + raw.toNat * 4))

/-- One sampled level of the voice-select input: a falling edge advances the index modulo 6 (R146). -/
def onSelect (r : RefHost) (level : Bool) : RefHost :=
  { r with
    voice := if r.prevLevel && !level then r.voice + 1 else r.voice
    prevLevel := level }

end Sys2Proof.Machine
end

