-- ==== Sys2Proof/Safety.lean ====
section
/-! DEFINITION. What counts as a good state and a good run of the engine, in the terms the statements use. -/

namespace Sys2Proof

open Sys2Proof.Machine

/-- The invariant every step keeps, for this hardware's configuration: the spec's own (spec/10_state.md R29 (d) and
(e), R19's and R22's register ranges, spec/42_kick.md R103 (b), spec/45_clap.md R117 (h)) and what they rest on. -/
structure Inv (s : State) : Prop where
  /-- `LFSR != 0` (R29 (e)). -/
  noise_alive : s.lfsr ≠ 0
  /-- An idle Kick has volume 0, and `K_PREV = 0` (R27, R103 (b)). -/
  kick_idle : s.kick.act = false → s.kick.vol = 0 ∧ s.kick.prev = 0
  /-- `K_PREV` is a sample of the reference table at less than full volume (R19, spec/41_mixer_tick.md R96). -/
  kick_prev : s.kick.prev.toNat ≤ 249
  snare_idle : s.snare.act = false → s.snare.nvol = 0 ∧ s.snare.tvol = 0
  snare_vol : s.snare.nvol.toNat ≤ 49152 ∧ s.snare.tvol.toNat ≤ 40960
  hihat_idle : s.hihat.act = false → s.hihat.vol = 0
  hihat_vol : s.hihat.vol.toNat ≤ 32768
  /-- `H_SPEED` holds the mask of the last Hi-hat trigger, or 0 before the first (R21). -/
  hihat_speed : s.hihat.speed = 0 ∨ s.hihat.speed = 0x01 ∨ s.hihat.speed = 0x1F
  /-- Idle is reached from Sustaining only (R22). -/
  clap_idle : s.clap.act = false → s.clap.vol = 0 ∧ s.clap.stut = 0
  clap_vol : s.clap.vol.toNat ≤ 49152
  /-- `C_TIMER` is in 0..201 (R22). -/
  clap_timer : s.clap.timer.toNat ≤ 201
  /-- `C_TIMER` is 0 throughout Sustaining and Idle (R117 (h)). -/
  clap_sustain : s.clap.stut = 0 → s.clap.timer = 0
  tom_idle : s.tom.act = false → s.tom.vol = 0
  tom_vol : s.tom.vol.toNat ≤ 57344
  cowbell_idle : s.cowbell.act = false → s.cowbell.vol = 0
  cowbell_vol : s.cowbell.vol.toNat ≤ 36864

/-- A run that issued only legal words: its `FAULT` bit is 0 (spec/60_exceptions.md R152). -/
def faultFree (s : State) : Prop := s.fault = false

/-- A trace of legal words only. -/
def legalTrace (tr : List Event) : Prop :=
  ∀ w, Event.cmd w ∈ tr → isReserved w = false

/-- Two states agree on everything the noise voices read: `LFSR`, the parameters, Snare, Hi-hat, Clap. -/
def agreeOnNoiseSide (s t : State) : Prop :=
  s.lfsr = t.lfsr ∧ s.tone = t.tone ∧ s.decayIdx = t.decayIdx
    ∧ s.snare = t.snare ∧ s.hihat = t.hihat ∧ s.clap = t.clap

/-- The next event is `RESET`. -/
def nextIsReset (s : State) : Prop := ∃ rest, s.pending = .reset :: rest

/-- The next event is `TICK`. -/
def nextIsTick (s : State) : Prop := ∃ rest, s.pending = .tick :: rest

/-- The next event is a command word that spells `i`. -/
def nextIsCommand (s : State) (i : Instr) : Prop :=
  ∃ w rest, s.pending = .cmd w :: rest ∧ decode w = .command i

/-- The next event is a reserved command word. -/
def nextIsReserved (s : State) : Prop :=
  ∃ w rest, s.pending = .cmd w :: rest ∧ isReserved w = true

/-- The next event triggers the voice `v`, in either variant. -/
def nextTriggers (s : State) (v : Voice) : Prop :=
  ∃ i, nextIsCommand s i ∧ i.voice = some v

end Sys2Proof
end

