-- ==== Sys2Proof/Certificates/Slice0/Obligations.lean ====
section
/-! DEFINITION. The statements for the provers. Each docstring names the rule of spec/ it formalises; a clause that is
the model's own choice says so and names the log entry. -/

open Sys2Proof Sys2Proof.Machine

/-! ## The ten commands: encoding, result, and with it the frame and the completion of each -/

/-- spec/48_commands.md R128: no register changes, and a `NOP` may be dropped from any trace. -/
def Obligations.NopChangesNothingAndMayBeDropped : Prop :=
  encode .nop = 0x000000 ∧
  (∀ s : State, exec .nop s = .next s) ∧
  ∀ (c : Cfg) (tr : List Event) (s : State),
    outputStream c (tr.filter fun e => decide (e ≠ .cmd 0x000000)) s = outputStream c tr s ∧
    traceWith c (tr.filter fun e => decide (e ≠ .cmd 0x000000)) s = traceWith c tr s

/-- spec/42_kick.md R101, spec/48_commands.md R131. -/
def Obligations.KickTriggerArmsFromTone : Prop :=
  ∀ (amp : Word) (s : State),
    encode (.trigKick amp) = 0x100000 ||| amp.setWidth 24 ∧
    exec (.trigKick amp) s = .next { s with kick :=
      { act := true
        vol := u16 (65535 * (amp.toNat + 1) / 65536)
        phase := 0
        step := s.tone
        cnt := s.kick.cnt
        prev := s.kick.prev } }

/-- spec/43_snare.md R106. -/
def Obligations.SnareTriggerSetsBothVolumes : Prop :=
  ∀ (amp : Word) (s : State),
    encode (.trigSnare amp) = 0x110000 ||| amp.setWidth 24 ∧
    exec (.trigSnare amp) s = .next { s with snare :=
      { act := true
        nvol := u16 (49152 * (amp.toNat + 1) / 65536)
        tvol := u16 (40960 * (amp.toNat + 1) / 65536)
        phase := 0
        cnt := s.snare.cnt } }

/-- spec/44_hihat.md R110, R111: the two variants differ in `H_SPEED` only. -/
def Obligations.HihatTriggersDifferInSpeedOnly : Prop :=
  ∀ (amp : Word) (s : State),
    encode (.trigHhc amp) = 0x120000 ||| amp.setWidth 24 ∧
    encode (.trigHho amp) = 0x1A0000 ||| amp.setWidth 24 ∧
    exec (.trigHhc amp) s = .next { s with hihat :=
      { act := true
        vol := u16 (32768 * (amp.toNat + 1) / 65536)
        ph1 := 0
        ph2 := 0
        speed := 0x01
        cnt := s.hihat.cnt } } ∧
    exec (.trigHho amp) s = .next { s with hihat :=
      { act := true
        vol := u16 (32768 * (amp.toNat + 1) / 65536)
        ph1 := 0
        ph2 := 0
        speed := 0x1F
        cnt := s.hihat.cnt } }

/-- spec/45_clap.md R115, in every phase of the Clap. -/
def Obligations.ClapTriggerStartsThreeBursts : Prop :=
  ∀ (amp : Word) (s : State),
    encode (.trigClap amp) = 0x130000 ||| amp.setWidth 24 ∧
    exec (.trigClap amp) s = .next { s with clap :=
      { act := true
        vol := u16 (49152 * (amp.toNat + 1) / 65536)
        stut := 3
        timer := 0
        cnt := s.clap.cnt } }

/-- spec/46_tom.md R120: the step wraps modulo 65536. -/
def Obligations.TomTriggerStepIsToneAbove : Prop :=
  ∀ (amp : Word) (s : State),
    encode (.trigTom amp) = 0x140000 ||| amp.setWidth 24 ∧
    exec (.trigTom amp) s = .next { s with tom :=
      { act := true
        vol := u16 (57344 * (amp.toNat + 1) / 65536)
        phase := 0
        step := u16 ((s.tone.toNat + 200) % 65536)
        cnt := s.tom.cnt } }

/-- spec/47_cowbell.md R124. -/
def Obligations.CowbellTriggerSetsDistinctPhases : Prop :=
  ∀ (amp : Word) (s : State),
    encode (.trigCowbell amp) = 0x150000 ||| amp.setWidth 24 ∧
    exec (.trigCowbell amp) s = .next { s with cowbell :=
      { act := true
        vol := u16 (36864 * (amp.toNat + 1) / 65536)
        ph1 := 0
        ph2 := 16384
        cnt := s.cowbell.cnt } }

/-- spec/48_commands.md R129: every 16-bit value, nothing else written. -/
def Obligations.SetToneWritesToneOnly : Prop :=
  ∀ (tone : Word) (s : State),
    encode (.setTone tone) = 0x200000 ||| tone.setWidth 24 ∧
    exec (.setTone tone) s = .next { s with tone := tone }

/-- spec/48_commands.md R130, spec/10_state.md R23: the mask after it is 1, 3, 7, 15; the gate counters are not
touched; a word of the same selector with data above 3 raises `IllegalCommand`. -/
def Obligations.SetDecaySelectsTheMask : Prop :=
  (∀ (idx : BitVec 2) (s : State),
    encode (.setDecay idx) = 0x210000 ||| idx.setWidth 24 ∧
    exec (.setDecay idx) s = .next { s with decayIdx := idx } ∧
    (decayMask idx).toNat = 2 ^ (idx.toNat + 1) - 1) ∧
  ∀ (data : Word) (s : State), 3 < data.toNat →
    runCommand (0x210000 ||| data.setWidth 24) s = .next { s with fault := true }

/-! ## Words: decoding, encoding, dispatch -/

/-- Words written out from spec/30_encoding.md R60 and spec/95_test_vectors.md V12, each with the command it
spells. -/
def Obligations.ListedWordsDecodeToTheirCommands : Prop :=
  decode 0b0000_0000_0000_0000_0000_0000 = .command .nop ∧
  decode 0b0001_0000_1111_1111_1111_1111 = .command (.trigKick 0xFFFF) ∧
  decode 0b0001_0001_0000_0000_0000_0000 = .command (.trigSnare 0) ∧
  decode 0b0001_0010_1000_0000_0000_0000 = .command (.trigHhc 0x8000) ∧
  decode 0b0001_0011_0000_0000_0000_0001 = .command (.trigClap 1) ∧
  decode 0b0001_0100_1010_1011_1100_1101 = .command (.trigTom 0xABCD) ∧
  decode 0b0001_0101_1111_1111_1111_1111 = .command (.trigCowbell 0xFFFF) ∧
  decode 0b0001_1010_1000_0000_0000_0000 = .command (.trigHho 0x8000) ∧
  decode 0b0010_0000_0000_0010_1011_1100 = .command (.setTone 700) ∧
  decode 0b0010_0001_0000_0000_0000_0011 = .command (.setDecay 3)

/-- spec/30_encoding.md R59 to R61, R63: no bit of a command is dropped, and each legal word has one command. -/
def Obligations.DecodeAndEncodeAgree : Prop :=
  (∀ i : Instr, decode (encode i) = .command i) ∧
  ∀ (w : CmdWord) (i : Instr), decode w = .command i → encode i = w

/-- spec/30_encoding.md R60: the decoder answers a command exactly where a row of the opcode map matches, that row's
command, and no two rows match one word. -/
def Obligations.DecoderFollowsTheOpcodeMap : Prop :=
  ∀ w : CmdWord,
    (opcodeRows.filter fun r => r.fits w).map OpcodeRow.mnemonic =
      match decode w with
      | .command i => [i.mnemonic]
      | .reserved _ => []

/-- spec/30_encoding.md R62: the five classes of reserved words, what a reserved word does, and how many words are
legal. -/
def Obligations.ReservedWordsAreTheListedClasses : Prop :=
  (∀ w : CmdWord,
    (isReserved w = true ↔
      (w.toNat / 2 ^ 20 = 0 ∧ w.toNat % 2 ^ 20 ≠ 0) ∨
      (w.toNat / 2 ^ 20 = 1 ∧ w.toNat / 2 ^ 16 % 16 ∈ [6, 7, 8, 9, 11, 12, 13, 14, 15]) ∨
      (w.toNat / 2 ^ 20 = 2 ∧ 2 ≤ w.toNat / 2 ^ 16 % 16) ∨
      (w.toNat / 2 ^ 20 = 2 ∧ w.toNat / 2 ^ 16 % 16 = 1 ∧ 3 < w.toNat % 2 ^ 16) ∨
      3 ≤ w.toNat / 2 ^ 20) ∧
    (isReserved w = true ↔ ∃ why, decode w = .reserved why) ∧
    ∀ s : State, isReserved w = true → runCommand w s = .next { s with fault := true }) ∧
  ((Finset.range (2 ^ 24)).filter fun n => isReserved (BitVec.ofNat 24 n) = false).card = 524293

/-- spec/48_commands.md R127: the dispatch, written on the numeric fields of the word, and what no command does: write
`OUT` or `LFSR`, advance a counter or touch the Kick's low-pass memory, produce a sample. -/
def Obligations.CommandDispatchIsTotalAndMakesNoSample : Prop :=
  ∀ (w : CmdWord) (s : State),
    (runCommand w s =
      if w.toNat = 0 then exec .nop s
      else if w.toNat / 2 ^ 16 = 0x10 then exec (.trigKick (u16 w.toNat)) s
      else if w.toNat / 2 ^ 16 = 0x11 then exec (.trigSnare (u16 w.toNat)) s
      else if w.toNat / 2 ^ 16 = 0x12 then exec (.trigHhc (u16 w.toNat)) s
      else if w.toNat / 2 ^ 16 = 0x13 then exec (.trigClap (u16 w.toNat)) s
      else if w.toNat / 2 ^ 16 = 0x14 then exec (.trigTom (u16 w.toNat)) s
      else if w.toNat / 2 ^ 16 = 0x15 then exec (.trigCowbell (u16 w.toNat)) s
      else if w.toNat / 2 ^ 16 = 0x1A then exec (.trigHho (u16 w.toNat)) s
      else if w.toNat / 2 ^ 16 = 0x20 then exec (.setTone (u16 w.toNat)) s
      else if w.toNat / 2 ^ 16 = 0x21 ∧ w.toNat % 2 ^ 16 < 4 then exec (.setDecay (BitVec.ofNat 2 w.toNat)) s
      else .next { s with fault := true }) ∧
    ∃ t : State, runCommand w s = .next t ∧
      t.out = s.out ∧ t.lfsr = s.lfsr ∧ t.outValid = s.outValid ∧ t.pending = s.pending ∧
      t.kick.cnt = s.kick.cnt ∧ t.kick.prev = s.kick.prev ∧ t.snare.cnt = s.snare.cnt ∧
      t.hihat.cnt = s.hihat.cnt ∧ t.clap.cnt = s.clap.cnt ∧ t.tom.cnt = s.tom.cnt ∧
      t.cowbell.cnt = s.cowbell.cnt ∧
      (t.kick.phase = s.kick.phase ∨ t.kick.phase = 0) ∧
      (t.snare.phase = s.snare.phase ∨ t.snare.phase = 0) ∧
      (t.hihat.ph1 = s.hihat.ph1 ∨ t.hihat.ph1 = 0) ∧ (t.hihat.ph2 = s.hihat.ph2 ∨ t.hihat.ph2 = 0) ∧
      (t.tom.phase = s.tom.phase ∨ t.tom.phase = 0) ∧
      (t.cowbell.ph1 = s.cowbell.ph1 ∨ t.cowbell.ph1 = 0) ∧
      (t.cowbell.ph2 = s.cowbell.ph2 ∨ t.cowbell.ph2 = 16384)

/-- spec/48_commands.md R134 (an inference the spec marks as its own): triggers of different voices commute. -/
def Obligations.TriggersOfDifferentVoicesCommute : Prop :=
  ∀ (i j : Instr) (v u : Voice), i.voice = some v → j.voice = some u → v ≠ u →
    ∀ s : State, ∃ t₁ t₂ r : State,
      exec i s = .next t₁ ∧ exec j s = .next t₂ ∧ exec j t₁ = .next r ∧ exec i t₂ = .next r

/-! ## Steps, reset, the one fault -/

/-- A step serves the next event, and a command word that spells `i` runs `i` (spec/00_scope.md R5, spec/20_memory.md
R50, spec/48_commands.md R127). That a step without an event is idle, and ends a pulse on `out_valid`, is the model's
choice (logs 1 and 3). -/
def Obligations.StepRunsTheNextEvent : Prop :=
  (∀ (s : State) (w : CmdWord) (rest : List Event) (i : Instr),
    s.pending = .cmd w :: rest → decode w = .command i →
      step s = exec i { s with pending := rest }) ∧
  (∀ (s : State) (w : CmdWord) (rest : List Event) (why : Reserved),
    s.pending = .cmd w :: rest → decode w = .reserved why →
      step s = .next { s with pending := rest, fault := true }) ∧
  (∀ (s : State) (rest : List Event), s.pending = .tick :: rest →
    step s = .next (tick cfgRef { s with pending := rest })) ∧
  (∀ (s : State) (rest : List Event), s.pending = .reset :: rest →
    step s = .next { State.reset with pending := rest }) ∧
  (∀ s : State, s.pending = [] → step s = .next { s with outValid := false }) ∧
  ∀ (s : State) (nbits w : Nat) (i : Instr), decode (tableWord nbits w) = .command i →
    step (s.withFetchWord nbits w) = exec i s

/-- spec/60_exceptions.md R150: nothing can fail. Every step answers a next state with one event fewer to come. -/
def Obligations.EveryStepAnswersANextState : Prop :=
  ∀ s : State, ∃ t : State, step s = .next t ∧ t.pending = s.pending.tail

/-- spec/60_exceptions.md R152: a reserved word sets `FAULT` and nothing else, the run goes on as if the word had been
`NOP`, and `FAULT` falls by `RESET` only. -/
def Obligations.IllegalCommandIsStickyAndHarmless : Prop :=
  (∀ (w : CmdWord) (s : State), isReserved w = true → runCommand w s = .next { s with fault := true }) ∧
  (∀ (s t : State), nextIsReserved s → step s = .next t →
    t.fault = true ∧ ∀ n : State, step { s with pending := .cmd 0x000000 :: s.pending.tail } = .next n →
      t = { n with fault := true }) ∧
  (∀ (s t : State), step s = .next t → s.fault = true → t.fault = false → nextIsReset s) ∧
  ∀ (s t : State), step s = .next t → s.fault = false → t.fault = true → nextIsReserved s

/-- spec/70_reset_and_hazards.md R171: all 37 registers after reset, and `TICK(S0) = S0` but for the pin `out_valid`. -/
def Obligations.ResetStateIsAFixedPointOfTick : Prop :=
  State.reset =
    { lfsr := 0xACE1, tone := 700, decayIdx := 0, out := 0, fault := false
      kick := { act := false, vol := 0, phase := 0, step := 0, cnt := 0, prev := 0 }
      snare := { act := false, nvol := 0, tvol := 0, phase := 0, cnt := 0 }
      hihat := { act := false, vol := 0, ph1 := 0, ph2 := 0, speed := 0, cnt := 0 }
      clap := { act := false, vol := 0, stut := 0, timer := 0, cnt := 0 }
      tom := { act := false, vol := 0, phase := 0, step := 0, cnt := 0 }
      cowbell := { act := false, vol := 0, ph1 := 0, ph2 := 0, cnt := 0 }
      outValid := false, pending := [] } ∧
  tick cfgRef State.reset = { State.reset with outValid := true }

/-- spec/10_state.md R14 to R18: who writes each shared register, over every step. -/
def Obligations.SharedRegistersHaveOnlyTheirWriters : Prop :=
  ∀ s t : State, step s = .next t →
    (t.lfsr ≠ s.lfsr → nextIsReset s ∨
      (nextIsTick s ∧ (s.snare.act = true ∨ s.hihat.act = true ∨ s.clap.act = true))) ∧
    (t.tone ≠ s.tone → nextIsReset s ∨ nextIsCommand s (.setTone t.tone)) ∧
    (t.decayIdx ≠ s.decayIdx → nextIsReset s ∨ nextIsCommand s (.setDecay t.decayIdx)) ∧
    (t.out ≠ s.out → nextIsReset s ∨ nextIsTick s) ∧
    (t.fault ≠ s.fault → nextIsReset s ∨ nextIsReserved s)

/-- spec/10_state.md R28: a voice's registers change only by its own trigger, by a tick in which it is active, or by
reset. -/
def Obligations.VoicesAreWrittenByTheirOwnersOnly : Prop :=
  ∀ s t : State, step s = .next t →
    (t.kick ≠ s.kick → nextIsReset s ∨ nextTriggers s .kick ∨ (nextIsTick s ∧ s.kick.act = true)) ∧
    (t.snare ≠ s.snare → nextIsReset s ∨ nextTriggers s .snare ∨ (nextIsTick s ∧ s.snare.act = true)) ∧
    (t.hihat ≠ s.hihat → nextIsReset s ∨ nextTriggers s .hihat ∨ (nextIsTick s ∧ s.hihat.act = true)) ∧
    (t.clap ≠ s.clap → nextIsReset s ∨ nextTriggers s .clap ∨ (nextIsTick s ∧ s.clap.act = true)) ∧
    (t.tom ≠ s.tom → nextIsReset s ∨ nextTriggers s .tom ∨ (nextIsTick s ∧ s.tom.act = true)) ∧
    (t.cowbell ≠ s.cowbell → nextIsReset s ∨ nextTriggers s .cowbell ∨ (nextIsTick s ∧ s.cowbell.act = true))

/-- spec/10_state.md R27, R29 (b): an ACT flag rises by its voice's trigger only, and falls only by reset or in a tick
after which the voice's volume (both of the Snare's) is 0. -/
def Obligations.ActiveFlagsRiseByTriggerAndFallAtSilence : Prop :=
  ∀ s t : State, step s = .next t →
    (∀ v : Voice, s.active v = false → t.active v = true → nextTriggers s v) ∧
    (∀ v : Voice, s.active v = true → t.active v = false → nextIsReset s ∨ nextIsTick s) ∧
    (s.kick.act = true → t.kick.act = false → t.kick.vol = 0) ∧
    (s.snare.act = true → t.snare.act = false → t.snare.nvol = 0 ∧ t.snare.tvol = 0) ∧
    (s.hihat.act = true → t.hihat.act = false → t.hihat.vol = 0) ∧
    (s.clap.act = true → t.clap.act = false → t.clap.vol = 0) ∧
    (s.tom.act = true → t.tom.act = false → t.tom.vol = 0) ∧
    (s.cowbell.act = true → t.cowbell.act = false → t.cowbell.vol = 0)

/-- spec/10_state.md R29 (a): a volume never rises between two triggers of its voice, whatever else happens. -/
def Obligations.VolumesNeverRiseBetweenTriggers : Prop :=
  ∀ s t : State, step s = .next t →
    (¬ nextTriggers s .kick → t.kick.vol.toNat ≤ s.kick.vol.toNat) ∧
    (¬ nextTriggers s .snare → t.snare.nvol.toNat ≤ s.snare.nvol.toNat ∧ t.snare.tvol.toNat ≤ s.snare.tvol.toNat) ∧
    (¬ nextTriggers s .hihat → t.hihat.vol.toNat ≤ s.hihat.vol.toNat) ∧
    (¬ nextTriggers s .clap → t.clap.vol.toNat ≤ s.clap.vol.toNat) ∧
    (¬ nextTriggers s .tom → t.tom.vol.toNat ≤ s.tom.vol.toNat) ∧
    (¬ nextTriggers s .cowbell → t.cowbell.vol.toNat ≤ s.cowbell.vol.toNat)

/-- The invariant `Inv` (Safety.lean) holds at reset. -/
def Obligations.ResetStateMeetsTheInvariant : Prop := Inv State.reset

/-- Every step from a state that meets the invariant leads to one that meets it. -/
def Obligations.EveryStepKeepsTheInvariant : Prop :=
  ∀ s t : State, Inv s → step s = .next t → Inv t

/-! ## The noise source -/

/-- spec/40_noise_lfsr.md R80, with its corner cases and its example. -/
def Obligations.LfsrStepIsTheGaloisStep : Prop :=
  (∀ l : Word,
    lfsrBit l = decide (l.toNat % 2 = 1) ∧
    (lfsrNext cfgRef l).toNat = if l.toNat % 2 = 1 then (l.toNat / 2) ^^^ 0xB400 else l.toNat / 2) ∧
  lfsrNext cfgRef 0 = 0 ∧ lfsrNext cfgRef 1 = 0xB400 ∧ lfsrNext cfgRef 0xFFFF = 0xCBFF ∧
  lfsrNext cfgRef 0xACE1 = 0xE270

/-- spec/40_noise_lfsr.md R82 (the period is an inference the spec marks as its own): the old value is recovered by the
rule's formula, 0 is fixed and only 0 leads to it, no trace from reset reaches 0, and from the seed every nonzero
value is visited, the seed again after exactly 65535 steps and not before. -/
def Obligations.LfsrVisitsEveryNonzeroValue : Prop :=
  (∀ l : Word,
    (((lfsrNext cfgRef l ^^^ (if (lfsrNext cfgRef l).getLsbD 15 then 0xB400 else 0)) <<< 1) |||
      (if (lfsrNext cfgRef l).getLsbD 15 then 1 else 0)) = l) ∧
  (∀ l : Word, lfsrNext cfgRef l = 0 ↔ l = 0) ∧
  (∀ tr : List Event, (traceWith cfgRef tr State.reset).lfsr ≠ 0) ∧
  (lfsrNext cfgRef)^[65535] 0xACE1 = 0xACE1 ∧
  (∀ n : Nat, 0 < n → n < 65535 → (lfsrNext cfgRef)^[n] 0xACE1 ≠ 0xACE1) ∧
  ∀ l : Word, l ≠ 0 → ∃ n : Nat, n < 65535 ∧ (lfsrNext cfgRef)^[n] 0xACE1 = l

/-- spec/40_noise_lfsr.md R85 and spec/95_test_vectors.md V1: the golden sequence (an inference the spec marks as its
own). -/
def Obligations.GoldenNoiseSequence : Prop :=
  (List.range 16).map (fun n => lfsrBit ((lfsrNext cfgRef)^[n] 0xACE1)) =
    [true, false, false, false, false, true, true, true, false, false, true, false, false, false, true, true] ∧
  (lfsrNext cfgRef)^[16] 0xACE1 = 0xEB62 ∧ (lfsrNext cfgRef)^[20] 0xACE1 = 0x23B6

/-- spec/40_noise_lfsr.md R81: Snare, Hi-hat and Clap step the register once each, only when active; Kick, Tom and
Cowbell neither step nor read it; a tick advances it by the number of active noise voices. -/
def Obligations.NoiseStepsOncePerActiveNoiseVoice : Prop :=
  ∀ (c : Cfg) (s : State),
    (snareSample c s).1.lfsr = (if s.snare.act then lfsrNext c s.lfsr else s.lfsr) ∧
    (hihatSample c s).1.lfsr = (if s.hihat.act then lfsrNext c s.lfsr else s.lfsr) ∧
    (clapSample c s).1.lfsr = (if s.clap.act then lfsrNext c s.lfsr else s.lfsr) ∧
    (∀ l : Word,
      kickSample c { s with lfsr := l } = ({ (kickSample c s).1 with lfsr := l }, (kickSample c s).2) ∧
      tomSample c { s with lfsr := l } = ({ (tomSample c s).1 with lfsr := l }, (tomSample c s).2) ∧
      cowbellSample c { s with lfsr := l } = ({ (cowbellSample c s).1 with lfsr := l }, (cowbellSample c s).2)) ∧
    (tick c s).lfsr =
      (lfsrNext c)^[(s.snare.act.toNat + s.hihat.act.toNat) + s.clap.act.toNat] s.lfsr

/-! ## The helpers -/

/-- spec/41_mixer_tick.md R91: for a mask 2^n - 1 the gate fires on exactly the calls whose incremented counter is a
multiple of 2^n, so on one of every 2^n consecutive calls. -/
def Obligations.GateFiresOncePerPeriod : Prop :=
  ∀ (n : Nat) (cnt : Byte), n ≤ 8 →
    (∀ k : Nat,
      (gateCount^[k] cnt).toNat = (cnt.toNat + k) % 256 ∧
      (gateFires (gateCount^[k] cnt) (u8 (2 ^ n - 1)) = true ↔ (cnt.toNat + k + 1) % 2 ^ n = 0)) ∧
    ((List.range (2 ^ n)).filter fun k => gateFires (gateCount^[k] cnt) (u8 (2 ^ n - 1))).length = 1

/-- spec/41_mixer_tick.md R92, the function `Decay` with its examples. -/
def Obligations.DecayLowersEveryPositiveVolume : Prop :=
  (∀ (v : Word) (sh : Fin 16),
    ((decay v sh).toNat : Int) = max 0 ((v.toNat : Int) - max 1 (v.toNat / 2 ^ sh.val)) ∧
    (v ≠ 0 → (decay v sh).toNat < v.toNat) ∧ decay 0 sh = 0) ∧
  decay 65535 7 = 65024 ∧ decay 128 7 = 127 ∧ decay 127 7 = 126 ∧ decay 1 7 = 0 ∧ decay 0 7 = 0 ∧
  decay 5 0 = 0 ∧ decay 65535 15 = 65534

/-- spec/41_mixer_tick.md R93, the function `Scale8`: its value, its bounds, and that the low byte of the volume does
not reach it. -/
def Obligations.ScaledSampleIsBelowTheSample : Prop :=
  ∀ (x : Nat) (vol : Word), x ≤ 255 →
    scale8 x vol = x * (vol.toNat / 256) / 256 ∧
    x * (vol.toNat / 256) ≤ 65025 ∧
    scale8 x vol ≤ 254 ∧
    (0 < x → scale8 x vol ≤ x - 1) ∧
    (vol.toNat < 256 → scale8 x vol = 0) ∧
    scale8 x vol = scale8 x (u16 (vol.toNat / 256 * 256))

/-- spec/41_mixer_tick.md R95: one conditional subtraction; never below 0, never up, below the target by at most
`(STEP >> sh) - 1`. -/
def Obligations.SweepOnlyGoesDown : Prop :=
  ∀ (step target : Word) (sh : Fin 16),
    (step.toNat ≤ target.toNat → sweep step target sh = step) ∧
    (target.toNat < step.toNat →
      max 1 (step.toNat / 2 ^ sh.val) ≤ step.toNat ∧
      (sweep step target sh).toNat = step.toNat - max 1 (step.toNat / 2 ^ sh.val)) ∧
    (sweep step target sh).toNat ≤ step.toNat ∧
    (target.toNat < step.toNat → (sweep step target sh).toNat < target.toNat →
      target.toNat - (sweep step target sh).toNat ≤ step.toNat / 2 ^ sh.val - 1)

/-- spec/48_commands.md R131: the value, full accent, zero, monotone, never above `v0`, and the rule's examples. -/
def Obligations.TriggerVolumeScalesLinearly : Prop :=
  (∀ v0 amp : Word,
    (scaleVol v0 amp).toNat = v0.toNat * (amp.toNat + 1) / 65536 ∧
    v0.toNat * (amp.toNat + 1) < 2 ^ 32 ∧
    scaleVol v0 0xFFFF = v0 ∧ scaleVol v0 0 = 0 ∧
    (scaleVol v0 amp).toNat ≤ v0.toNat ∧
    ∀ amp' : Word, amp.toNat ≤ amp'.toNat → (scaleVol v0 amp).toNat ≤ (scaleVol v0 amp').toNat) ∧
  scaleVol 65535 0x7FFF = 32767 ∧ scaleVol 49152 0x7FFF = 24576 ∧ scaleVol 40960 0x8000 = 20480 ∧
  scaleVol 32768 0x00FF = 128 ∧ scaleVol 57344 1 = 1

/-- spec/20_memory.md R43, what it says of the table of `CFG_REF`: range 6..250 with the extremes at their places, the
sum, and the half-period symmetry. -/
def Obligations.WaveTableIsOneSymmetricPeriod : Prop :=
  (∀ i : BitVec 7,
    6 ≤ (waveRead cfgRef i).toNat ∧ (waveRead cfgRef i).toNat ≤ 250 ∧
    ((waveRead cfgRef i).toNat = 6 ↔ i ∈ [95, 96, 97]) ∧
    ((waveRead cfgRef i).toNat = 250 ↔ i ∈ [31, 32, 33]) ∧
    (waveRead cfgRef i).toNat + (waveRead cfgRef (i + 64)).toNat = 256) ∧
  (cfgRef.wave.toList.map BitVec.toNat).sum = 16384

/-- spec/20_memory.md R45 and spec/90_conflicts.md C3: the index is bits 14..8 of the phase; bit 15 takes no part; for
a constant increment it repeats after any number of ticks that advance the phase by a multiple of 32768. -/
def Obligations.WaveIndexIgnoresTheTopPhaseBit : Prop :=
  ∀ (ph : Word) (inc k : Nat),
    waveIndex ph = ph.extractLsb' 8 7 ∧
    (waveIndex ph).toNat = ph.toNat / 256 % 128 ∧
    waveIndex (ph ^^^ 0x8000) = waveIndex ph ∧
    (k * inc % 32768 = 0 → waveIndex ((fun p => advancePhase p inc)^[k] ph) = waveIndex ph)

/-! ## The six sample micro-operations, in integers, for this hardware's constants -/

/-- spec/42_kick.md R102. -/
def Obligations.KickSampleFollowsItsRule : Prop :=
  ∀ s : State,
    (s.kick.act = false → kickSample cfgRef s = (s, 0)) ∧
    (s.kick.act = true →
      let target := s.tone.toNat / 20
      let step := if target < s.kick.step.toNat then s.kick.step.toNat - max 1 (s.kick.step.toNat / 128)
        else s.kick.step.toNat
      let cnt := (s.kick.cnt.toNat + 1) % 256
      let fires := decide (cnt % 2 ^ (s.decayIdx.toNat + 1) = 0)
      let vol := if fires then s.kick.vol.toNat - max 1 (s.kick.vol.toNat / 128) else s.kick.vol.toNat
      let phase := (s.kick.phase.toNat + step) % 65536
      let cur := (waveTable.toList.getD (phase / 256 % 128) 0).toNat * (vol / 256) / 256
      kickSample cfgRef s =
        ({ s with kick :=
          { act := !(fires && decide (vol = 0)), vol := u16 vol, phase := u16 phase, step := u16 step
            cnt := u8 cnt, prev := u8 cur } },
         u16 ((cur + s.kick.prev.toNat) / 2)))

/-- spec/43_snare.md R107. -/
def Obligations.SnareSampleFollowsItsRule : Prop :=
  ∀ s : State,
    (s.snare.act = false → snareSample cfgRef s = (s, 0)) ∧
    (s.snare.act = true →
      let l := lfsrNext cfgRef s.lfsr
      let cnt := (s.snare.cnt.toNat + 1) % 256
      let fires := decide (cnt % 2 ^ (s.decayIdx.toNat + 1) = 0)
      let nvol := if fires then s.snare.nvol.toNat - max 1 (s.snare.nvol.toNat / 128) else s.snare.nvol.toNat
      let tvol := if fires then s.snare.tvol.toNat - max 1 (s.snare.tvol.toNat / 64) else s.snare.tvol.toNat
      let phase := (s.snare.phase.toNat + s.tone.toNat / 2) % 65536
      let tonal := (waveTable.toList.getD (phase / 256 % 128) 0).toNat * (tvol / 256) / 256
      let noise := l.toNat % 256 * (nvol / 256) / 256
      snareSample cfgRef s =
        ({ s with
          lfsr := l
          snare := { act := !(fires && (decide (nvol = 0) && decide (tvol = 0))), nvol := u16 nvol, tvol := u16 tvol
                     phase := u16 phase, cnt := u8 cnt } },
         u16 (tonal + noise)))

/-- spec/44_hihat.md R112: the output uses the volume before this tick's decay. -/
def Obligations.HihatSampleFollowsItsRule : Prop :=
  ∀ s : State,
    (s.hihat.act = false → hihatSample cfgRef s = (s, 0)) ∧
    (s.hihat.act = true →
      let l := lfsrNext cfgRef s.lfsr
      let ph1 := (s.hihat.ph1.toNat + 17152) % 65536
      let ph2 := (s.hihat.ph2.toNat + 26880) % 65536
      let metal := if decide (32768 ≤ ph1) = decide (32768 ≤ ph2) then 0 else 64
      let cnt := (s.hihat.cnt.toNat + 1) % 256
      let fires := decide (cnt &&& (s.hihat.speed.toNat ||| (2 ^ (s.decayIdx.toNat + 1) - 1)) = 0)
      let vol := if fires then s.hihat.vol.toNat - max 1 (s.hihat.vol.toNat / 64) else s.hihat.vol.toNat
      hihatSample cfgRef s =
        ({ s with
          lfsr := l
          hihat := { act := !(fires && decide (vol = 0)), vol := u16 vol, ph1 := u16 ph1, ph2 := u16 ph2
                     speed := s.hihat.speed, cnt := u8 cnt } },
         u16 ((metal + l.toNat % 128) * (s.hihat.vol.toNat / 256) / 256)))

/-- spec/45_clap.md R116: Idle, the three cases of Bursting, and Sustaining. -/
def Obligations.ClapSampleFollowsItsRule : Prop :=
  ∀ s : State,
    (s.clap.act = false → clapSample cfgRef s = (s, 0)) ∧
    (s.clap.act = true →
      let l := lfsrNext cfgRef s.lfsr
      let bit := decide (s.lfsr.toNat % 2 = 1)
      let t := s.clap.timer.toNat
      (s.clap.stut ≠ 0 → t < 60 →
        clapSample cfgRef s =
          ({ s with lfsr := l, clap := { s.clap with timer := u8 (t + 1) } },
           if bit then u16 (s.clap.vol.toNat / 256) else 0)) ∧
      (s.clap.stut ≠ 0 → 60 ≤ t → t ≤ 200 →
        clapSample cfgRef s = ({ s with lfsr := l, clap := { s.clap with timer := u8 (t + 1) } }, 0)) ∧
      (s.clap.stut ≠ 0 → 200 < t →
        clapSample cfgRef s =
          ({ s with
            lfsr := l
            clap := { s.clap with stut := BitVec.ofNat 2 (s.clap.stut.toNat - 1), timer := 0 } }, 0)) ∧
      (s.clap.stut = 0 →
        let cnt := (s.clap.cnt.toNat + 1) % 256
        let fires := decide (cnt % 2 ^ (s.decayIdx.toNat + 1) = 0)
        let vol := if fires then s.clap.vol.toNat - max 1 (s.clap.vol.toNat / 64) else s.clap.vol.toNat
        clapSample cfgRef s =
          ({ s with
            lfsr := l
            clap := { s.clap with act := !(fires && decide (vol = 0)), vol := u16 vol, cnt := u8 cnt } },
           if bit then u16 (vol / 256) else 0)))

/-- spec/46_tom.md R121. -/
def Obligations.TomSampleFollowsItsRule : Prop :=
  ∀ s : State,
    (s.tom.act = false → tomSample cfgRef s = (s, 0)) ∧
    (s.tom.act = true →
      let target := s.tone.toNat / 10
      let step := if target < s.tom.step.toNat then s.tom.step.toNat - max 1 (s.tom.step.toNat / 128)
        else s.tom.step.toNat
      let cnt := (s.tom.cnt.toNat + 1) % 256
      let fires := decide (cnt % 2 ^ (s.decayIdx.toNat + 1) = 0)
      let vol := if fires then s.tom.vol.toNat - max 1 (s.tom.vol.toNat / 64) else s.tom.vol.toNat
      let phase := (s.tom.phase.toNat + step) % 65536
      tomSample cfgRef s =
        ({ s with tom :=
          { act := !(fires && decide (vol = 0)), vol := u16 vol, phase := u16 phase, step := u16 step
            cnt := u8 cnt } },
         u16 ((waveTable.toList.getD (phase / 256 % 128) 0).toNat * (vol / 256) / 256)))

/-- spec/47_cowbell.md R125. -/
def Obligations.CowbellSampleFollowsItsRule : Prop :=
  ∀ s : State,
    (s.cowbell.act = false → cowbellSample cfgRef s = (s, 0)) ∧
    (s.cowbell.act = true →
      let cnt := (s.cowbell.cnt.toNat + 1) % 256
      let fires := decide (cnt % 2 ^ (s.decayIdx.toNat + 1) = 0)
      let vol := if fires then s.cowbell.vol.toNat - max 1 (s.cowbell.vol.toNat / 128) else s.cowbell.vol.toNat
      let base := (500 + s.tone.toNat / 2) % 65536
      let ph1 := (s.cowbell.ph1.toNat + base) % 65536
      let ph2 := (s.cowbell.ph2.toNat + base + base / 2) % 65536
      let w1 := (waveTable.toList.getD (ph1 / 256 % 128) 0).toNat
      let w2 := (waveTable.toList.getD (ph2 / 256 % 128) 0).toNat
      cowbellSample cfgRef s =
        ({ s with cowbell :=
          { act := !(fires && decide (vol = 0)), vol := u16 vol, ph1 := u16 ph1, ph2 := u16 ph2, cnt := u8 cnt } },
         u16 ((w1 + w2) / 2 * (vol / 256) / 256)))

/-! ## The tick and the mix -/

/-- spec/41_mixer_tick.md R96 (an inference the spec marks as its own): the bounds of the six contributions, for any
configuration in range, and the tighter ones of this hardware's. -/
def Obligations.ContributionsAreBounded : Prop :=
  (∀ (c : Cfg) (s : State), c.wf = true →
    (runVoices c s).c0.toNat ≤ 254 ∧ (runVoices c s).c1.toNat ≤ 508 ∧ (runVoices c s).c2.toNat ≤ 190 ∧
    (runVoices c s).c3.toNat ≤ 255 ∧ (runVoices c s).c4.toNat ≤ 254 ∧ (runVoices c s).c5.toNat ≤ 254) ∧
  ∀ s : State, s.kick.prev.toNat ≤ 249 →
    (runVoices cfgRef s).c0.toNat ≤ 249 ∧ (runVoices cfgRef s).c1.toNat ≤ 503 ∧
    (runVoices cfgRef s).c2.toNat ≤ 190 ∧ (runVoices cfgRef s).c3.toNat ≤ 255 ∧
    (runVoices cfgRef s).c4.toNat ≤ 249 ∧ (runVoices cfgRef s).c5.toNat ≤ 249

/-- spec/41_mixer_tick.md R86 to R90: a `TICK` is the six micro-operations in the fixed order, each on the state the one
before it leaves, and then `OUT`, which is half of the exact sum of what they return, rounded down and clamped to 255
(the 16-bit signed accumulator holds that sum, under any configuration in range); no other register is written by the
mix. The clamp itself, on every accumulator value, is two-sided. That the pulse on `out_valid` stands in the state is
the model's choice (log 3). -/
def Obligations.TickIsTheSixSamplesAndTheClampedHalfSum : Prop :=
  (∀ acc : I16, ((clampSample acc).toNat : Int) = max 0 (min 255 (acc.toInt / 2))) ∧
  ∀ (c : Cfg) (s : State), c.wf = true →
    let r0 := kickSample c s
    let r1 := snareSample c r0.1
    let r2 := hihatSample c r1.1
    let r3 := clapSample c r2.1
    let r4 := tomSample c r3.1
    let r5 := cowbellSample c r4.1
    let sum := r0.2.toNat + r1.2.toNat + r2.2.toNat + r3.2.toNat + r4.2.toNat + r5.2.toNat
    sum ≤ 1715 ∧ (mixSum (runVoices c s)).toInt = (sum : Int) ∧
    tick c s = { r5.1 with out := u8 (min 255 (sum / 2)), outValid := true }

/-- spec/70_reset_and_hazards.md R183 and spec/60_exceptions.md R161, for any configuration: a quiescent engine puts out
0 and changes nothing else, however many ticks pass. `out_valid` is the pin (log 3). -/
def Obligations.QuiescentEngineStaysQuiescent : Prop :=
  ∀ (c : Cfg) (s : State), s.quiescent = true →
    tick c s = { s with out := 0, outValid := true } ∧
    ∀ n : Nat, ticks c (n + 1) s = { s with out := 0, outValid := true }

/-- spec/10_state.md R28 and spec/40_noise_lfsr.md R84, for any configuration: what one tick makes of a voice's registers
depends on its own registers and the parameters only; so does the contribution of Kick, Tom and Cowbell; the
contribution of a noise voice depends besides on `LFSR` and on which noise voices before it are active; `LFSR` after
the tick on `LFSR` and on which of the three are active. And that dependence is real: for this hardware, two states
that differ in the Snare alone make the Hi-hat put out different samples. -/
def Obligations.VoicesMeetInTheNoiseSourceOnly : Prop :=
  (∀ (c : Cfg) (s t : State), s.decayIdx = t.decayIdx →
    (s.tone = t.tone →
      (s.kick = t.kick → (tick c s).kick = (tick c t).kick ∧ (runVoices c s).c0 = (runVoices c t).c0) ∧
      (s.tom = t.tom → (tick c s).tom = (tick c t).tom ∧ (runVoices c s).c4 = (runVoices c t).c4) ∧
      (s.cowbell = t.cowbell →
        (tick c s).cowbell = (tick c t).cowbell ∧ (runVoices c s).c5 = (runVoices c t).c5) ∧
      (s.snare = t.snare → (tick c s).snare = (tick c t).snare ∧
        (s.lfsr = t.lfsr → (runVoices c s).c1 = (runVoices c t).c1))) ∧
    (s.hihat = t.hihat → (tick c s).hihat = (tick c t).hihat ∧
      (s.lfsr = t.lfsr → s.snare.act = t.snare.act → (runVoices c s).c2 = (runVoices c t).c2)) ∧
    (s.clap = t.clap → (tick c s).clap = (tick c t).clap ∧
      (s.lfsr = t.lfsr → s.snare.act = t.snare.act → s.hihat.act = t.hihat.act →
        (runVoices c s).c3 = (runVoices c t).c3)) ∧
    (s.lfsr = t.lfsr → s.snare.act = t.snare.act → s.hihat.act = t.hihat.act → s.clap.act = t.clap.act →
      (tick c s).lfsr = (tick c t).lfsr)) ∧
  (∀ (c : Cfg) (s t : State), agreeOnNoiseSide s t → agreeOnNoiseSide (tick c s) (tick c t) ∧
    (runVoices c s).c1 = (runVoices c t).c1 ∧ (runVoices c s).c2 = (runVoices c t).c2 ∧
    (runVoices c s).c3 = (runVoices c t).c3) ∧
  ∃ (s : State) (v : Snare),
    (runVoices cfgRef s).c2 ≠ (runVoices cfgRef { s with snare := v }).c2

/-- spec/41_mixer_tick.md R87 (the second half, an inference the spec marks as its own): for any configuration, every order
of the six calls that keeps Snare, Hi-hat, Clap in that order gives the registers and the contributions of the fixed
order, wherever Kick, Tom and Cowbell stand; and for this hardware the order of the three noise voices does show. -/
def Obligations.OnlyTheNoiseVoicesOrderMatters : Prop :=
  (∀ (c : Cfg) (s : State) (order : List Voice),
    order.Perm Voice.inOrder → order.filter Voice.isNoise = [.snare, .hihat, .clap] →
      runOrder c order s = ((runVoices c s).state, order.map (runVoices c s).contribution)) ∧
  ∃ (s : State) (order : List Voice), order.Perm Voice.inOrder ∧
    (runOrder cfgRef order s).2 ≠ order.map (runVoices cfgRef s).contribution

/-- spec/45_clap.md R117 and R118: from the trigger, the burst phase is three periods of 202 ticks, 60 with gated noise
at one amplitude and 142 silent, with no decay and no gate counting; whatever the other voices do. -/
def Obligations.ClapBurstsForSixHundredSixTicks : Prop :=
  ∀ (s : State) (n : Nat), s.clap.act = true → s.clap.stut = 3 → s.clap.timer = 0 → n ≤ 606 →
    (ticks cfgRef n s).clap = { s.clap with stut := BitVec.ofNat 2 (3 - n / 202), timer := u8 (n % 202) } ∧
    (n < 606 → 60 ≤ n % 202 → (runVoices cfgRef (ticks cfgRef n s)).c3 = 0) ∧
    (n < 606 → n % 202 < 60 →
      (runVoices cfgRef (ticks cfgRef n s)).c3 =
        if lfsrBit (hihatSample cfgRef (snareSample cfgRef (ticks cfgRef n s)).1).1.lfsr
        then u16 (s.clap.vol.toNat / 256) else 0)

/-- spec/70_reset_and_hazards.md R184 (an inference the spec marks as its own): with no further command, every voice
ends; after 32 * 65535 ticks the engine is quiescent, from any state that meets the invariant. -/
def Obligations.EveryNoteEnds : Prop :=
  ∀ (s : State) (n : Nat), Inv s → 32 * 65535 ≤ n → (ticks cfgRef n s).quiescent = true

/-! ## Traces, pins, the reference host -/

/-- spec/00_scope.md R11, spec/20_memory.md R50: running the step machine until no event is left is the left-to-right
composition of the events' rules. -/
def Obligations.StepsComposeToTheTrace : Prop :=
  ∀ s : State,
    Host.Core.run Sys2Proof.core s.pending.length s =
      .next { traceWith cfgRef s.pending s with pending := [] }

/-- spec/00_scope.md R11: one output value per `TICK`, the n-th of them the `OUT` that the n-th `TICK` writes; and a trace
that begins with `RESET` does not depend on the state it starts in (nor, by the model, on anything but the events still
to come). -/
def Obligations.OutputStreamIsWhatEachTickWrites : Prop :=
  ∀ (c : Cfg) (tr : List Event) (s t : State),
    (outputStream c tr s).length = tr.count .tick ∧
    (∀ before after : List Event, tr = before ++ .tick :: after →
      (outputStream c tr s)[before.count .tick]? = some (traceWith c (before ++ [.tick]) s).out) ∧
    (s.pending = t.pending →
      traceWith c (.reset :: tr) s = traceWith c (.reset :: tr) t ∧
      outputStream c (.reset :: tr) s = outputStream c (.reset :: tr) t)

/-- spec/60_exceptions.md R155, spec/20_memory.md R52, spec/30_encoding.md R67, spec/70_reset_and_hazards.md R170, R178.
That `cmd_ready` is still high in the strobe's own cycle is the model's choice (log 10). -/
def Obligations.ResetOverTickOverCommand : Prop :=
  ∀ (c : Cfg) (w : PinWatch) (p : PinCycle),
    (p.rstN = false → cycleEvents c w p = .ok [.reset] ∧ cmdReady c w p = false) ∧
    (p.rstN = true → engineBusy c w = true → cmdReady c w p = false) ∧
    (p.rstN = true → offerStable w p = true → p.tick = true → engineBusy c w = true →
      cycleEvents c w p = .error .tickOverrun) ∧
    (p.rstN = true → offerStable w p = true → p.tick = true → p.cmdValid = true → engineBusy c w = false →
      cycleEvents c w p = .ok [.tick, .cmd p.cmd]) ∧
    (p.rstN = true → offerStable w p = true → p.tick = false → p.cmdValid = true → engineBusy c w = true →
      cycleEvents c w p = .ok [] ∧ (watchAfter c w p).offered = some p.cmd)

/-- spec/30_encoding.md R57, R66 and spec/70_reset_and_hazards.md R170, cycle by cycle: `out` and `fault` show the registers
(0 while `rst_n` is low), and in the cycle after `p` the pin `out_valid` is high exactly if `p` strobed a `TICK`, with
that `TICK`'s sample on `out`, whatever command `p` also takes; otherwise `out` holds its value, or shows 0 after a
`RESET`. That `OUT` is written in the strobe's own cycle is the model's choice (log 17). -/
def Obligations.OutValidMarksTheCycleAfterATick : Prop :=
  ∀ (c : Cfg) (m m' : PinMachine) (p q : PinCycle) (o : OutputPins), clockCycle c m p = .ok (o, m') →
    o.out = (if p.rstN then m.state.out else 0) ∧
    o.fault = (p.rstN && m.state.fault) ∧
    o.outValid = (p.rstN && m.state.outValid) ∧
    (q.rstN = true →
      (outputPins c m'.watch q m'.state).outValid = (p.rstN && p.tick) ∧
      (outputPins c m'.watch q m'.state).out =
        if p.rstN then (if p.tick then (tick c m.state).out else m.state.out) else 0) ∧
    (q.rstN = false →
      outputPins c m'.watch q m'.state = { out := 0, outValid := false, fault := false, cmdReady := false })

/-- spec/30_encoding.md R58, R66 and spec/00_scope.md R11, over any run of clock cycles: the registers after it are those
after the trace of its events, and without a reset the samples marked by `out_valid` are exactly that trace's output
stream, one cycle each, in order (a pulse still to be shown at either end counted where it belongs). That `OUT` is
written in the strobe's own cycle is the model's choice (log 17). -/
def Obligations.ClockCyclesShowTheOutputStream : Prop :=
  ∀ (c : Cfg) (ps : List PinCycle) (m m' : PinMachine) (os : List OutputPins),
    clockCycles c m ps = .ok (os, m') →
    ∃ es : List Event, pinEvents c m.watch ps = .ok es ∧
      idle m'.state = idle (traceWith c es m.state) ∧
      ((∀ p ∈ ps, p.rstN = true) →
        consumedSamples os ++ m'.state.markedSample = m.state.markedSample ++ outputStream c es m.state)

/-- spec/49_host_reference.md R149: the worked example of the detector, for any accent parameters, any selected voice and
either Hi-hat variant: exactly one trigger, at the third sample. -/
def Obligations.HysteresisExampleTriggersOnce : Prop :=
  ∀ (h : HostCfg) (r : RefHost), h.onThreshold = 10 → h.offThreshold = 3 → r.gate = false →
    onLevels h r [0, 5, 11, 9, 3, 2] =
      ([false, false, true, true, true, false], [triggerOf h r.voice (accentAmp h 11)])

/-- spec/49_host_reference.md R142, R144, R145: what the reference host sends is always in range. -/
def Obligations.ReferenceHostStaysInRange : Prop :=
  (∀ (h : HostCfg) (v : Byte), h.onThreshold.toNat < v.toNat →
    (accentAmp h v).toNat = min 65535 (h.accBase + (v.toNat - h.onThreshold.toNat) * h.accK)) ∧
  (∀ raw : Byte, ∃ idx : BitVec 2,
    mapDecay raw = .setDecay idx ∧ idx.toNat = min (raw.toNat / 64) 2 ∧ (decayMask idx).toNat ∈ [1, 3, 7]) ∧
  ∀ raw : Byte, ∃ tone : Word,
    mapTone raw = .setTone tone ∧ tone.toNat = 700 + raw.toNat * 4 ∧ 700 ≤ tone.toNat ∧ tone.toNat ≤ 1720
end

