-- ==== Sys2Proof/Laws/Decode.lean ====
section
/-! SUPPORT. The fields of an assembled word, and back. -/

namespace Sys2Proof.Laws

open Sys2Proof

section Fields
variable (op sel : BitVec 4) (data : Word)

theorem assemble_toNat : (assemble op sel data).toNat = (op.toNat * 16 + sel.toNat) * 65536 + data.toNat := by
  have hs := sel.isLt
  have hd := data.isLt
  simp only [assemble, BitVec.toNat_append]
  rw [← Nat.shiftLeft_add_eq_or_of_lt hd, ← Nat.shiftLeft_add_eq_or_of_lt hs]
  simp only [Nat.shiftLeft_eq]

@[simp] theorem opField_assemble : opField (assemble op sel data) = op := by
  apply BitVec.eq_of_toNat_eq
  have ho := op.isLt
  have hs := sel.isLt
  have hd := data.isLt
  simp only [opField, BitVec.extractLsb'_toNat, assemble_toNat, Nat.shiftRight_eq_div_pow]
  omega

@[simp] theorem selField_assemble : selField (assemble op sel data) = sel := by
  apply BitVec.eq_of_toNat_eq
  have ho := op.isLt
  have hs := sel.isLt
  have hd := data.isLt
  simp only [selField, BitVec.extractLsb'_toNat, assemble_toNat, Nat.shiftRight_eq_div_pow]
  omega

@[simp] theorem dataField_assemble : dataField (assemble op sel data) = data := by
  apply BitVec.eq_of_toNat_eq
  have hd := data.isLt
  simp only [dataField, BitVec.extractLsb'_toNat, assemble_toNat, Nat.shiftRight_eq_div_pow]
  omega

end Fields

/-- A word is its three fields (spec/30_encoding.md R59). -/
theorem assemble_fields (w : CmdWord) : assemble (opField w) (selField w) (dataField w) = w := by
  apply BitVec.eq_of_toNat_eq
  have hw := w.isLt
  rw [assemble_toNat]
  simp only [opField, selField, dataField, BitVec.extractLsb'_toNat, Nat.shiftRight_eq_div_pow]
  omega

/-- Masking a word masks its fields. -/
theorem assemble_and (o s o' s' : BitVec 4) (d d' : Word) :
    assemble o s d &&& assemble o' s' d' = assemble (o &&& o') (s &&& s') (d &&& d') :=
  (BitVec.and_append (x₁ := o ++ s) (x₂ := o' ++ s')).trans
    (congrArg (· ++ (d &&& d')) BitVec.and_append)

/-- Two words are equal exactly when their fields are. -/
theorem assemble_inj (o s o' s' : BitVec 4) (d d' : Word) :
    assemble o s d = assemble o' s' d' ↔ o = o' ∧ s = s' ∧ d = d' := by
  constructor
  · intro h
    refine ⟨?_, ?_, ?_⟩
    · simpa using congrArg opField h
    · simpa using congrArg selField h
    · simpa using congrArg dataField h
  · rintro ⟨rfl, rfl, rfl⟩
    rfl

/-- A row of the opcode map with mask and value given by fields matches by fields. -/
theorem fits_assemble (m : String) (vo vs mo ms o s : BitVec 4) (vd md d : Word) :
    (OpcodeRow.mk m (assemble vo vs vd) (assemble mo ms md)).fits (assemble o s d)
      = (decide (o &&& mo = vo) && decide (s &&& ms = vs) && decide (d &&& md = vd)) := by
  simp only [OpcodeRow.fits, assemble_and, assemble_inj, Bool.decide_and, Bool.and_assoc]

/-- The opcode map with each mask and value cut into fields. -/
theorem opcodeRows_assemble : opcodeRows =
    [⟨"NOP", assemble 0 0 0, assemble 15 15 0xFFFF⟩,
     ⟨"TRIG.KICK", assemble 1 0 0, assemble 15 15 0⟩,
     ⟨"TRIG.SNARE", assemble 1 1 0, assemble 15 15 0⟩,
     ⟨"TRIG.HHC", assemble 1 2 0, assemble 15 15 0⟩,
     ⟨"TRIG.CLAP", assemble 1 3 0, assemble 15 15 0⟩,
     ⟨"TRIG.TOM", assemble 1 4 0, assemble 15 15 0⟩,
     ⟨"TRIG.COWBELL", assemble 1 5 0, assemble 15 15 0⟩,
     ⟨"TRIG.HHO", assemble 1 10 0, assemble 15 15 0⟩,
     ⟨"SET.TONE", assemble 2 0 0, assemble 15 15 0⟩,
     ⟨"SET.DECAY", assemble 2 1 0, assemble 15 15 0xFFFC⟩] := rfl

end Sys2Proof.Laws
end

