-- ==== Sys2Proof/Laws/Ops.lean ====
section
/-! SUPPORT. What each shared operation computes, as arithmetic on natural numbers: the lemmas later proofs cite in
place of the bit vectors. -/

namespace Sys2Proof.Laws

open Sys2Proof Sys2Proof.Machine

theorem decayMask_cases (idx : BitVec 2) :
    decayMask idx = 1 ∨ decayMask idx = 3 ∨ decayMask idx = 7 ∨ decayMask idx = 15 := by
  revert idx; decide

theorem waveIndex_toNat (ph : Word) : (waveIndex ph).toNat = ph.toNat / 256 % 128 := by
  have h : (ph.toNat >>> 8) &&& 0x7F = ph.toNat / 256 % 128 := by
    rw [Nat.shiftRight_eq_div_pow, show 0x7F = 2 ^ 7 - 1 from rfl, Nat.and_two_pow_sub_one_eq_mod]
  simp [waveIndex, h]

theorem scale8_eq (x : Nat) (vol : Word) : scale8 x vol = x * (vol.toNat / 256) / 256 := by
  simp [scale8, Nat.shiftRight_eq_div_pow]

/-- The high byte of a volume is at most 255. -/
theorem volume_high_le (vol : Word) : vol.toNat / 256 ≤ 255 := by
  have := vol.isLt
  omega

theorem scale8_le {x m : Nat} (vol : Word) (h : x ≤ m) : scale8 x vol ≤ m * 255 / 256 := by
  rw [scale8_eq]
  exact Nat.div_le_div_right (Nat.mul_le_mul h (volume_high_le vol))

theorem scaleVol_toNat (v0 amp : Word) :
    (scaleVol v0 amp).toNat = v0.toNat * (amp.toNat + 1) / 65536 := by
  have ha : amp.toNat + 1 ≤ 65536 := amp.isLt
  have hb : v0.toNat * (amp.toNat + 1) / 65536 ≤ v0.toNat :=
    Nat.div_le_of_le_mul (by rw [Nat.mul_comm 65536]; exact Nat.mul_le_mul_left _ ha)
  have hv := v0.isLt
  simp only [scaleVol, u16, BitVec.toNat_ofNat, Nat.shiftRight_eq_div_pow]
  exact Nat.mod_eq_of_lt (lt_of_le_of_lt hb hv)

theorem advancePhase_toNat (ph : Word) (inc : Nat) :
    (advancePhase ph inc).toNat = (ph.toNat + inc) % 65536 := by
  simp [advancePhase, u16]

theorem gateCount_toNat (cnt : Byte) : (gateCount cnt).toNat = (cnt.toNat + 1) % 256 := by
  simp [gateCount, u8]

theorem decrement_eq (v : Word) (sh : Fin 16) : decrement v sh = max 1 (v.toNat / 2 ^ sh.val) := by
  simp [decrement, Nat.shiftRight_eq_div_pow]

theorem one_le_decrement (v : Word) (sh : Fin 16) : 1 ≤ decrement v sh := Nat.le_max_left _ _

/-- The clamp of `Decay` is truncated subtraction. -/
theorem decay_toNat (v : Word) (sh : Fin 16) : (decay v sh).toNat = v.toNat - decrement v sh := by
  unfold decay
  split
  · next h => simp; omega
  · have := v.isLt
    simp only [u16, BitVec.toNat_ofNat]
    omega

theorem decayIf_toNat_le (fires : Bool) (v : Word) (sh : Fin 16) :
    (decayIf fires v sh).toNat ≤ v.toNat := by
  cases fires
  · simp [decayIf]
  · simp [decayIf, decay_toNat]

@[simp] theorem decayIf_zero (fires : Bool) (sh : Fin 16) : decayIf fires 0 sh = 0 := by
  cases fires <;> simp [decayIf, decay]

theorem sweep_toNat (step target : Word) (sh : Fin 16) :
    (sweep step target sh).toNat =
      if target.toNat < step.toNat then step.toNat - decrement step sh else step.toNat := by
  have := step.isLt
  unfold sweep
  split
  · simp only [u16, BitVec.toNat_ofNat]
    omega
  · rfl

theorem actAfterGate_eq_false {act fires silent : Bool} (h : actAfterGate act fires silent = false) :
    act = false ∨ (fires = true ∧ silent = true) := by
  revert h; cases act <;> cases fires <;> cases silent <;> decide

/-- An active voice whose flag falls had its gate fire with nothing left to decay. -/
theorem actAfterGate_true {fires silent : Bool} :
    actAfterGate true fires silent = !(fires && silent) := by
  cases fires <;> cases silent <;> rfl

@[simp] theorem whileActive_true (s : State) (body : State × I16) : whileActive true s body = body := rfl

@[simp] theorem whileActive_false (s : State) (body : State × I16) : whileActive false s body = (s, 0) := rfl

end Sys2Proof.Laws
end

