-- ==== Sys2Proof/Laws/PerInstr.lean ====
section
/-! SUPPORT. A statement made for every instruction, proved one constructor at a time. -/

namespace Sys2Proof.Laws.OneRow

open Sys2Proof Sys2Proof.Laws

/-- The command's word matches exactly one row of the opcode map, the row of its own mnemonic
(spec/30_encoding.md R60). -/
def Statement (i : Instr) : Prop :=
  (opcodeRows.filter fun r => r.fits (encode i)).map OpcodeRow.mnemonic = [i.mnemonic]

theorem mnemonics_of_filter (f : OpcodeRow → Bool) (l : List OpcodeRow) :
    (l.filter f).map OpcodeRow.mnemonic = l.flatMap fun r => if f r = true then [r.mnemonic] else [] := by
  induction l with
  | nil => rfl
  | cons r l ih => cases h : f r <;> simp [h, ih]

/-- What a word of fields `o`, `s`, `d` matches: masks of all ones keep a field, masks of 0 drop it. -/
theorem matching_rows (o s : BitVec 4) (d : Word) :
    (opcodeRows.filter fun r => r.fits (assemble o s d)).map OpcodeRow.mnemonic =
      (if o = 0 ∧ s = 0 ∧ d = 0 then ["NOP"] else [])
        ++ (if o = 1 ∧ s = 0 then ["TRIG.KICK"] else [])
        ++ (if o = 1 ∧ s = 1 then ["TRIG.SNARE"] else [])
        ++ (if o = 1 ∧ s = 2 then ["TRIG.HHC"] else [])
        ++ (if o = 1 ∧ s = 3 then ["TRIG.CLAP"] else [])
        ++ (if o = 1 ∧ s = 4 then ["TRIG.TOM"] else [])
        ++ (if o = 1 ∧ s = 5 then ["TRIG.COWBELL"] else [])
        ++ (if o = 1 ∧ s = 10 then ["TRIG.HHO"] else [])
        ++ (if o = 2 ∧ s = 0 then ["SET.TONE"] else [])
        ++ (if o = 2 ∧ s = 1 ∧ d &&& 0xFFFC = 0 then ["SET.DECAY"] else []) := by
  have hn : ∀ x : BitVec 4, x &&& 15 = x := by decide
  have hw : ∀ x : Word, x &&& 0xFFFF = x := fun x => BitVec.and_allOnes
  have hz : ∀ x : Word, x &&& 0 = 0 := fun x => BitVec.and_zero
  simp only [mnemonics_of_filter, opcodeRows_assemble, List.flatMap_cons, List.flatMap_nil, fits_assemble, hn, hw,
    hz, List.append_nil, List.append_assoc, decide_true, Bool.and_true, Bool.and_eq_true, decide_eq_true_eq,
    and_assoc]

theorem nop : Statement .nop := (matching_rows 0 0 0).trans (by decide)

theorem trigKick (amp : Word) : Statement (.trigKick amp) :=
  (matching_rows 1 0 amp).trans (by simp [Instr.mnemonic])

theorem trigSnare (amp : Word) : Statement (.trigSnare amp) :=
  (matching_rows 1 1 amp).trans (by simp [Instr.mnemonic])

theorem trigHhc (amp : Word) : Statement (.trigHhc amp) :=
  (matching_rows 1 2 amp).trans (by simp [Instr.mnemonic])

theorem trigClap (amp : Word) : Statement (.trigClap amp) :=
  (matching_rows 1 3 amp).trans (by simp [Instr.mnemonic])

theorem trigTom (amp : Word) : Statement (.trigTom amp) :=
  (matching_rows 1 4 amp).trans (by simp [Instr.mnemonic])

theorem trigCowbell (amp : Word) : Statement (.trigCowbell amp) :=
  (matching_rows 1 5 amp).trans (by simp [Instr.mnemonic])

theorem trigHho (amp : Word) : Statement (.trigHho amp) :=
  (matching_rows 1 10 amp).trans (by simp [Instr.mnemonic])

theorem setTone (tone : Word) : Statement (.setTone tone) :=
  (matching_rows 2 0 tone).trans (by simp [Instr.mnemonic])

theorem setDecay (idx : BitVec 2) : Statement (.setDecay idx) :=
  (matching_rows 2 1 (idx.setWidth 16)).trans (by revert idx; decide)

end Sys2Proof.Laws.OneRow
end

