-- ==== Sys2Proof/Laws/State.lean ====
section
/-! SUPPORT. One lemma per field per state update, so that no later proof unfolds a record update. -/

namespace Sys2Proof.Laws

open Sys2Proof Sys2Proof.Machine

section raiseIllegalCommandFields
variable (s : State)

@[simp] theorem raiseIllegalCommand_lfsr : (raiseIllegalCommand s).lfsr = s.lfsr := rfl
@[simp] theorem raiseIllegalCommand_tone : (raiseIllegalCommand s).tone = s.tone := rfl
@[simp] theorem raiseIllegalCommand_decayIdx : (raiseIllegalCommand s).decayIdx = s.decayIdx := rfl
@[simp] theorem raiseIllegalCommand_out : (raiseIllegalCommand s).out = s.out := rfl
@[simp] theorem raiseIllegalCommand_fault : (raiseIllegalCommand s).fault = true := by simp [raiseIllegalCommand, faultAfter]
@[simp] theorem raiseIllegalCommand_kick : (raiseIllegalCommand s).kick = s.kick := rfl
@[simp] theorem raiseIllegalCommand_snare : (raiseIllegalCommand s).snare = s.snare := rfl
@[simp] theorem raiseIllegalCommand_hihat : (raiseIllegalCommand s).hihat = s.hihat := rfl
@[simp] theorem raiseIllegalCommand_clap : (raiseIllegalCommand s).clap = s.clap := rfl
@[simp] theorem raiseIllegalCommand_tom : (raiseIllegalCommand s).tom = s.tom := rfl
@[simp] theorem raiseIllegalCommand_cowbell : (raiseIllegalCommand s).cowbell = s.cowbell := rfl
@[simp] theorem raiseIllegalCommand_outValid : (raiseIllegalCommand s).outValid = s.outValid := rfl
@[simp] theorem raiseIllegalCommand_pending : (raiseIllegalCommand s).pending = s.pending := rfl

end raiseIllegalCommandFields

section takeEventFields
variable (rest : List Event) (s : State)

@[simp] theorem takeEvent_lfsr : (takeEvent rest s).lfsr = s.lfsr := rfl
@[simp] theorem takeEvent_tone : (takeEvent rest s).tone = s.tone := rfl
@[simp] theorem takeEvent_decayIdx : (takeEvent rest s).decayIdx = s.decayIdx := rfl
@[simp] theorem takeEvent_out : (takeEvent rest s).out = s.out := rfl
@[simp] theorem takeEvent_fault : (takeEvent rest s).fault = s.fault := rfl
@[simp] theorem takeEvent_kick : (takeEvent rest s).kick = s.kick := rfl
@[simp] theorem takeEvent_snare : (takeEvent rest s).snare = s.snare := rfl
@[simp] theorem takeEvent_hihat : (takeEvent rest s).hihat = s.hihat := rfl
@[simp] theorem takeEvent_clap : (takeEvent rest s).clap = s.clap := rfl
@[simp] theorem takeEvent_tom : (takeEvent rest s).tom = s.tom := rfl
@[simp] theorem takeEvent_cowbell : (takeEvent rest s).cowbell = s.cowbell := rfl
@[simp] theorem takeEvent_outValid : (takeEvent rest s).outValid = s.outValid := rfl
@[simp] theorem takeEvent_pending : (takeEvent rest s).pending = rest := rfl

end takeEventFields

section idleFields
variable (s : State)

@[simp] theorem idle_lfsr : (idle s).lfsr = s.lfsr := rfl
@[simp] theorem idle_tone : (idle s).tone = s.tone := rfl
@[simp] theorem idle_decayIdx : (idle s).decayIdx = s.decayIdx := rfl
@[simp] theorem idle_out : (idle s).out = s.out := rfl
@[simp] theorem idle_fault : (idle s).fault = s.fault := rfl
@[simp] theorem idle_kick : (idle s).kick = s.kick := rfl
@[simp] theorem idle_snare : (idle s).snare = s.snare := rfl
@[simp] theorem idle_hihat : (idle s).hihat = s.hihat := rfl
@[simp] theorem idle_clap : (idle s).clap = s.clap := rfl
@[simp] theorem idle_tom : (idle s).tom = s.tom := rfl
@[simp] theorem idle_cowbell : (idle s).cowbell = s.cowbell := rfl
@[simp] theorem idle_outValid : (idle s).outValid = false := rfl
@[simp] theorem idle_pending : (idle s).pending = s.pending := rfl

end idleFields

section setToneFields
variable (tone : Word) (s : State)

@[simp] theorem setTone_lfsr : (setTone tone s).lfsr = s.lfsr := rfl
@[simp] theorem setTone_tone : (setTone tone s).tone = tone := rfl
@[simp] theorem setTone_decayIdx : (setTone tone s).decayIdx = s.decayIdx := rfl
@[simp] theorem setTone_out : (setTone tone s).out = s.out := rfl
@[simp] theorem setTone_fault : (setTone tone s).fault = s.fault := rfl
@[simp] theorem setTone_kick : (setTone tone s).kick = s.kick := rfl
@[simp] theorem setTone_snare : (setTone tone s).snare = s.snare := rfl
@[simp] theorem setTone_hihat : (setTone tone s).hihat = s.hihat := rfl
@[simp] theorem setTone_clap : (setTone tone s).clap = s.clap := rfl
@[simp] theorem setTone_tom : (setTone tone s).tom = s.tom := rfl
@[simp] theorem setTone_cowbell : (setTone tone s).cowbell = s.cowbell := rfl
@[simp] theorem setTone_outValid : (setTone tone s).outValid = s.outValid := rfl
@[simp] theorem setTone_pending : (setTone tone s).pending = s.pending := rfl

end setToneFields

section setDecayFields
variable (idx : BitVec 2) (s : State)

@[simp] theorem setDecay_lfsr : (setDecay idx s).lfsr = s.lfsr := rfl
@[simp] theorem setDecay_tone : (setDecay idx s).tone = s.tone := rfl
@[simp] theorem setDecay_decayIdx : (setDecay idx s).decayIdx = idx := rfl
@[simp] theorem setDecay_out : (setDecay idx s).out = s.out := rfl
@[simp] theorem setDecay_fault : (setDecay idx s).fault = s.fault := rfl
@[simp] theorem setDecay_kick : (setDecay idx s).kick = s.kick := rfl
@[simp] theorem setDecay_snare : (setDecay idx s).snare = s.snare := rfl
@[simp] theorem setDecay_hihat : (setDecay idx s).hihat = s.hihat := rfl
@[simp] theorem setDecay_clap : (setDecay idx s).clap = s.clap := rfl
@[simp] theorem setDecay_tom : (setDecay idx s).tom = s.tom := rfl
@[simp] theorem setDecay_cowbell : (setDecay idx s).cowbell = s.cowbell := rfl
@[simp] theorem setDecay_outValid : (setDecay idx s).outValid = s.outValid := rfl
@[simp] theorem setDecay_pending : (setDecay idx s).pending = s.pending := rfl

end setDecayFields

section trigKickFields
variable (c : Cfg) (amp : Word) (s : State)

@[simp] theorem trigKick_lfsr : (trigKick c amp s).lfsr = s.lfsr := rfl
@[simp] theorem trigKick_tone : (trigKick c amp s).tone = s.tone := rfl
@[simp] theorem trigKick_decayIdx : (trigKick c amp s).decayIdx = s.decayIdx := rfl
@[simp] theorem trigKick_out : (trigKick c amp s).out = s.out := rfl
@[simp] theorem trigKick_fault : (trigKick c amp s).fault = s.fault := rfl
@[simp] theorem trigKick_kick : (trigKick c amp s).kick = { s.kick with act := true, vol := scaleVol c.kickVol0 amp, step := s.tone, phase := 0 } := rfl
@[simp] theorem trigKick_snare : (trigKick c amp s).snare = s.snare := rfl
@[simp] theorem trigKick_hihat : (trigKick c amp s).hihat = s.hihat := rfl
@[simp] theorem trigKick_clap : (trigKick c amp s).clap = s.clap := rfl
@[simp] theorem trigKick_tom : (trigKick c amp s).tom = s.tom := rfl
@[simp] theorem trigKick_cowbell : (trigKick c amp s).cowbell = s.cowbell := rfl
@[simp] theorem trigKick_outValid : (trigKick c amp s).outValid = s.outValid := rfl
@[simp] theorem trigKick_pending : (trigKick c amp s).pending = s.pending := rfl

end trigKickFields

section trigSnareFields
variable (c : Cfg) (amp : Word) (s : State)

@[simp] theorem trigSnare_lfsr : (trigSnare c amp s).lfsr = s.lfsr := rfl
@[simp] theorem trigSnare_tone : (trigSnare c amp s).tone = s.tone := rfl
@[simp] theorem trigSnare_decayIdx : (trigSnare c amp s).decayIdx = s.decayIdx := rfl
@[simp] theorem trigSnare_out : (trigSnare c amp s).out = s.out := rfl
@[simp] theorem trigSnare_fault : (trigSnare c amp s).fault = s.fault := rfl
@[simp] theorem trigSnare_kick : (trigSnare c amp s).kick = s.kick := rfl
@[simp] theorem trigSnare_snare : (trigSnare c amp s).snare = { s.snare with act := true, nvol := scaleVol c.snNvol0 amp, tvol := scaleVol c.snTvol0 amp, phase := c.snPhase0 } := rfl
@[simp] theorem trigSnare_hihat : (trigSnare c amp s).hihat = s.hihat := rfl
@[simp] theorem trigSnare_clap : (trigSnare c amp s).clap = s.clap := rfl
@[simp] theorem trigSnare_tom : (trigSnare c amp s).tom = s.tom := rfl
@[simp] theorem trigSnare_cowbell : (trigSnare c amp s).cowbell = s.cowbell := rfl
@[simp] theorem trigSnare_outValid : (trigSnare c amp s).outValid = s.outValid := rfl
@[simp] theorem trigSnare_pending : (trigSnare c amp s).pending = s.pending := rfl

end trigSnareFields

section trigHihatFields
variable (c : Cfg) (speed : Byte) (amp : Word) (s : State)

@[simp] theorem trigHihat_lfsr : (trigHihat c speed amp s).lfsr = s.lfsr := rfl
@[simp] theorem trigHihat_tone : (trigHihat c speed amp s).tone = s.tone := rfl
@[simp] theorem trigHihat_decayIdx : (trigHihat c speed amp s).decayIdx = s.decayIdx := rfl
@[simp] theorem trigHihat_out : (trigHihat c speed amp s).out = s.out := rfl
@[simp] theorem trigHihat_fault : (trigHihat c speed amp s).fault = s.fault := rfl
@[simp] theorem trigHihat_kick : (trigHihat c speed amp s).kick = s.kick := rfl
@[simp] theorem trigHihat_snare : (trigHihat c speed amp s).snare = s.snare := rfl
@[simp] theorem trigHihat_hihat : (trigHihat c speed amp s).hihat = { s.hihat with act := true, vol := scaleVol c.hhVol0 amp, ph1 := c.hhPh1_0, ph2 := c.hhPh2_0, speed := speed } := rfl
@[simp] theorem trigHihat_clap : (trigHihat c speed amp s).clap = s.clap := rfl
@[simp] theorem trigHihat_tom : (trigHihat c speed amp s).tom = s.tom := rfl
@[simp] theorem trigHihat_cowbell : (trigHihat c speed amp s).cowbell = s.cowbell := rfl
@[simp] theorem trigHihat_outValid : (trigHihat c speed amp s).outValid = s.outValid := rfl
@[simp] theorem trigHihat_pending : (trigHihat c speed amp s).pending = s.pending := rfl

end trigHihatFields

section trigClapFields
variable (c : Cfg) (amp : Word) (s : State)

@[simp] theorem trigClap_lfsr : (trigClap c amp s).lfsr = s.lfsr := rfl
@[simp] theorem trigClap_tone : (trigClap c amp s).tone = s.tone := rfl
@[simp] theorem trigClap_decayIdx : (trigClap c amp s).decayIdx = s.decayIdx := rfl
@[simp] theorem trigClap_out : (trigClap c amp s).out = s.out := rfl
@[simp] theorem trigClap_fault : (trigClap c amp s).fault = s.fault := rfl
@[simp] theorem trigClap_kick : (trigClap c amp s).kick = s.kick := rfl
@[simp] theorem trigClap_snare : (trigClap c amp s).snare = s.snare := rfl
@[simp] theorem trigClap_hihat : (trigClap c amp s).hihat = s.hihat := rfl
@[simp] theorem trigClap_clap : (trigClap c amp s).clap = { s.clap with act := true, vol := scaleVol c.clVol0 amp, stut := c.clBursts, timer := 0 } := rfl
@[simp] theorem trigClap_tom : (trigClap c amp s).tom = s.tom := rfl
@[simp] theorem trigClap_cowbell : (trigClap c amp s).cowbell = s.cowbell := rfl
@[simp] theorem trigClap_outValid : (trigClap c amp s).outValid = s.outValid := rfl
@[simp] theorem trigClap_pending : (trigClap c amp s).pending = s.pending := rfl

end trigClapFields

section trigTomFields
variable (c : Cfg) (amp : Word) (s : State)

@[simp] theorem trigTom_lfsr : (trigTom c amp s).lfsr = s.lfsr := rfl
@[simp] theorem trigTom_tone : (trigTom c amp s).tone = s.tone := rfl
@[simp] theorem trigTom_decayIdx : (trigTom c amp s).decayIdx = s.decayIdx := rfl
@[simp] theorem trigTom_out : (trigTom c amp s).out = s.out := rfl
@[simp] theorem trigTom_fault : (trigTom c amp s).fault = s.fault := rfl
@[simp] theorem trigTom_kick : (trigTom c amp s).kick = s.kick := rfl
@[simp] theorem trigTom_snare : (trigTom c amp s).snare = s.snare := rfl
@[simp] theorem trigTom_hihat : (trigTom c amp s).hihat = s.hihat := rfl
@[simp] theorem trigTom_clap : (trigTom c amp s).clap = s.clap := rfl
@[simp] theorem trigTom_tom : (trigTom c amp s).tom = { s.tom with act := true, vol := scaleVol c.tmVol0 amp, step := u16 (s.tone.toNat + c.tmStepOfs.toNat), phase := c.tmPhase0 } := rfl
@[simp] theorem trigTom_cowbell : (trigTom c amp s).cowbell = s.cowbell := rfl
@[simp] theorem trigTom_outValid : (trigTom c amp s).outValid = s.outValid := rfl
@[simp] theorem trigTom_pending : (trigTom c amp s).pending = s.pending := rfl

end trigTomFields

section trigCowbellFields
variable (c : Cfg) (amp : Word) (s : State)

@[simp] theorem trigCowbell_lfsr : (trigCowbell c amp s).lfsr = s.lfsr := rfl
@[simp] theorem trigCowbell_tone : (trigCowbell c amp s).tone = s.tone := rfl
@[simp] theorem trigCowbell_decayIdx : (trigCowbell c amp s).decayIdx = s.decayIdx := rfl
@[simp] theorem trigCowbell_out : (trigCowbell c amp s).out = s.out := rfl
@[simp] theorem trigCowbell_fault : (trigCowbell c amp s).fault = s.fault := rfl
@[simp] theorem trigCowbell_kick : (trigCowbell c amp s).kick = s.kick := rfl
@[simp] theorem trigCowbell_snare : (trigCowbell c amp s).snare = s.snare := rfl
@[simp] theorem trigCowbell_hihat : (trigCowbell c amp s).hihat = s.hihat := rfl
@[simp] theorem trigCowbell_clap : (trigCowbell c amp s).clap = s.clap := rfl
@[simp] theorem trigCowbell_tom : (trigCowbell c amp s).tom = s.tom := rfl
@[simp] theorem trigCowbell_cowbell : (trigCowbell c amp s).cowbell = { s.cowbell with act := true, vol := scaleVol c.cbVol0 amp, ph1 := c.cbPh1_0, ph2 := c.cbPh2_0 } := rfl
@[simp] theorem trigCowbell_outValid : (trigCowbell c amp s).outValid = s.outValid := rfl
@[simp] theorem trigCowbell_pending : (trigCowbell c amp s).pending = s.pending := rfl

end trigCowbellFields

/-- The two Hi-hat triggers are one operation at two speeds (spec/44_hihat.md R111). -/
@[simp] theorem trigHhc_eq (c : Cfg) (amp : Word) (s : State) :
    trigHhc c amp s = trigHihat c c.hhSpeedClosed amp s := rfl

@[simp] theorem trigHho_eq (c : Cfg) (amp : Word) (s : State) :
    trigHho c amp s = trigHihat c c.hhSpeedOpen amp s := rfl

@[simp] theorem resetEngine_pending (c : Cfg) (s : State) : (resetEngine c s).pending = s.pending := rfl

/-- `RESET` reads nothing of the engine: two states with the same events to come leave it equal. -/
theorem resetEngine_congr (c : Cfg) {s t : State} (h : s.pending = t.pending) :
    resetEngine c s = resetEngine c t := by
  simp [resetEngine, h]

end Sys2Proof.Laws
end

