-- ==== Sys2Proof/Laws/Tick.lean ====
section
/-! SUPPORT. Everything one `TICK` can do, said once: each voice's micro-operation changes its own registers and, for
the three noise voices, `LFSR`; so every field of the state after a tick is an expression in the state before it. -/

namespace Sys2Proof.Laws

open Sys2Proof Sys2Proof.Machine

/-- The Kick's registers after its micro-operation. -/
def kickAfter (c : Cfg) (s : State) : Kick :=
  if s.kick.act then (kickTick c s.tone (decayMask s.decayIdx) s.kick).1 else s.kick

/-- `LFSR` after the Snare's micro-operation. -/
def lfsrAfterSnare (c : Cfg) (s : State) : Word := if s.snare.act then lfsrNext c s.lfsr else s.lfsr

/-- The Snare's registers after its micro-operation. -/
def snareAfter (c : Cfg) (s : State) : Snare :=
  if s.snare.act then (snareTick c s.tone (decayMask s.decayIdx) (lfsrNext c s.lfsr) s.snare).1 else s.snare

/-- `LFSR` after the Hi-hat's micro-operation. -/
def lfsrAfterHihat (c : Cfg) (s : State) : Word :=
  if s.hihat.act then lfsrNext c (lfsrAfterSnare c s) else lfsrAfterSnare c s

/-- The Hi-hat's registers after its micro-operation. -/
def hihatAfter (c : Cfg) (s : State) : Hihat :=
  if s.hihat.act then (hihatTick c (decayMask s.decayIdx) (lfsrNext c (lfsrAfterSnare c s)) s.hihat).1 else s.hihat

/-- `LFSR` after the Clap's micro-operation, which is `LFSR` after the tick. -/
def lfsrAfterClap (c : Cfg) (s : State) : Word :=
  if s.clap.act then lfsrNext c (lfsrAfterHihat c s) else lfsrAfterHihat c s

/-- The Clap's registers after its micro-operation. -/
def clapAfter (c : Cfg) (s : State) : Clap :=
  if s.clap.act then (clapTick c (decayMask s.decayIdx) (lfsrBit (lfsrAfterHihat c s)) s.clap).1 else s.clap

/-- The Tom's registers after its micro-operation. -/
def tomAfter (c : Cfg) (s : State) : Tom :=
  if s.tom.act then (tomTick c s.tone (decayMask s.decayIdx) s.tom).1 else s.tom

/-- The Cowbell's registers after its micro-operation. -/
def cowbellAfter (c : Cfg) (s : State) : Cowbell :=
  if s.cowbell.act then (cowbellTick c s.tone (decayMask s.decayIdx) s.cowbell).1 else s.cowbell

theorem kickSample_state (c : Cfg) (s : State) : (kickSample c s).1 = { s with kick := kickAfter c s } := by
  unfold kickSample kickAfter whileActive
  split <;> rfl

theorem snareSample_state (c : Cfg) (s : State) :
    (snareSample c s).1 = { s with lfsr := lfsrAfterSnare c s, snare := snareAfter c s } := by
  unfold snareSample snareAfter lfsrAfterSnare whileActive
  split <;> rfl

theorem hihatSample_state (c : Cfg) (s : State) :
    (hihatSample c s).1 =
      { s with
        lfsr := if s.hihat.act then lfsrNext c s.lfsr else s.lfsr
        hihat := if s.hihat.act then (hihatTick c (decayMask s.decayIdx) (lfsrNext c s.lfsr) s.hihat).1
          else s.hihat } := by
  unfold hihatSample whileActive
  split <;> rfl

theorem clapSample_state (c : Cfg) (s : State) :
    (clapSample c s).1 =
      { s with
        lfsr := if s.clap.act then lfsrNext c s.lfsr else s.lfsr
        clap := if s.clap.act then (clapTick c (decayMask s.decayIdx) (lfsrBit s.lfsr) s.clap).1
          else s.clap } := by
  unfold clapSample whileActive
  split <;> rfl

theorem tomSample_state (c : Cfg) (s : State) : (tomSample c s).1 = { s with tom := tomAfter c s } := by
  unfold tomSample tomAfter whileActive
  split <;> rfl

theorem cowbellSample_state (c : Cfg) (s : State) :
    (cowbellSample c s).1 = { s with cowbell := cowbellAfter c s } := by
  unfold cowbellSample cowbellAfter whileActive
  split <;> rfl

theorem runVoices_state (c : Cfg) (s : State) :
    (runVoices c s).state =
      { s with
        lfsr := lfsrAfterClap c s
        kick := kickAfter c s
        snare := snareAfter c s
        hihat := hihatAfter c s
        clap := clapAfter c s
        tom := tomAfter c s
        cowbell := cowbellAfter c s } := by
  simp only [runVoices, kickSample_state, snareSample_state, hihatSample_state, clapSample_state,
    tomSample_state, cowbellSample_state]
  rfl

/-- The Kick's contribution. -/
def kickValue (c : Cfg) (s : State) : I16 :=
  if s.kick.act then (kickTick c s.tone (decayMask s.decayIdx) s.kick).2 else 0

/-- The Snare's contribution. -/
def snareValue (c : Cfg) (s : State) : I16 :=
  if s.snare.act then (snareTick c s.tone (decayMask s.decayIdx) (lfsrNext c s.lfsr) s.snare).2 else 0

/-- The Hi-hat's contribution, after the Snare's step of `LFSR`. -/
def hihatValue (c : Cfg) (s : State) : I16 :=
  if s.hihat.act then (hihatTick c (decayMask s.decayIdx) (lfsrNext c (lfsrAfterSnare c s)) s.hihat).2 else 0

/-- The Clap's contribution, after the other noise voices' steps of `LFSR`. -/
def clapValue (c : Cfg) (s : State) : I16 :=
  if s.clap.act then (clapTick c (decayMask s.decayIdx) (lfsrBit (lfsrAfterHihat c s)) s.clap).2 else 0

/-- The Tom's contribution. -/
def tomValue (c : Cfg) (s : State) : I16 :=
  if s.tom.act then (tomTick c s.tone (decayMask s.decayIdx) s.tom).2 else 0

/-- The Cowbell's contribution. -/
def cowbellValue (c : Cfg) (s : State) : I16 :=
  if s.cowbell.act then (cowbellTick c s.tone (decayMask s.decayIdx) s.cowbell).2 else 0

theorem kickSample_value (c : Cfg) (s : State) : (kickSample c s).2 = kickValue c s := by
  unfold kickSample kickValue whileActive
  split <;> rfl

theorem snareSample_value (c : Cfg) (s : State) : (snareSample c s).2 = snareValue c s := by
  unfold snareSample snareValue whileActive
  split <;> rfl

theorem hihatSample_value (c : Cfg) (s : State) :
    (hihatSample c s).2 =
      if s.hihat.act then (hihatTick c (decayMask s.decayIdx) (lfsrNext c s.lfsr) s.hihat).2 else 0 := by
  unfold hihatSample whileActive
  split <;> rfl

theorem clapSample_value (c : Cfg) (s : State) :
    (clapSample c s).2 =
      if s.clap.act then (clapTick c (decayMask s.decayIdx) (lfsrBit s.lfsr) s.clap).2 else 0 := by
  unfold clapSample whileActive
  split <;> rfl

theorem tomSample_value (c : Cfg) (s : State) : (tomSample c s).2 = tomValue c s := by
  unfold tomSample tomValue whileActive
  split <;> rfl

theorem cowbellSample_value (c : Cfg) (s : State) : (cowbellSample c s).2 = cowbellValue c s := by
  unfold cowbellSample cowbellValue whileActive
  split <;> rfl

section Contributions
variable (c : Cfg) (s : State)

@[simp] theorem runVoices_c0 : (runVoices c s).c0 = kickValue c s := kickSample_value c s

@[simp] theorem runVoices_c1 : (runVoices c s).c1 = snareValue c s := by
  simp only [runVoices, snareSample_value, kickSample_state]
  rfl

@[simp] theorem runVoices_c2 : (runVoices c s).c2 = hihatValue c s := by
  simp only [runVoices, hihatSample_value, snareSample_state, kickSample_state]
  rfl

@[simp] theorem runVoices_c3 : (runVoices c s).c3 = clapValue c s := by
  simp only [runVoices, clapSample_value, hihatSample_state, snareSample_state, kickSample_state]
  rfl

@[simp] theorem runVoices_c4 : (runVoices c s).c4 = tomValue c s := by
  simp only [runVoices, tomSample_value, clapSample_state, hihatSample_state, snareSample_state, kickSample_state]
  rfl

@[simp] theorem runVoices_c5 : (runVoices c s).c5 = cowbellValue c s := by
  simp only [runVoices, cowbellSample_value, tomSample_state, clapSample_state, hihatSample_state,
    snareSample_state, kickSample_state]
  rfl

/-- The accumulator, contribution by contribution. -/
theorem mixSum_runVoices : mixSum (runVoices c s) =
    kickValue c s + snareValue c s + hihatValue c s + clapValue c s + tomValue c s + cowbellValue c s := by
  simp only [mixSum, runVoices_c0, runVoices_c1, runVoices_c2, runVoices_c3, runVoices_c4, runVoices_c5]

end Contributions

/-- The whole of a tick. -/
theorem tick_eq (c : Cfg) (s : State) :
    tick c s =
      { s with
        lfsr := lfsrAfterClap c s
        out := clampSample (mixSum (runVoices c s))
        kick := kickAfter c s
        snare := snareAfter c s
        hihat := hihatAfter c s
        clap := clapAfter c s
        tom := tomAfter c s
        cowbell := cowbellAfter c s
        outValid := true } := by
  simp only [tick, runVoices_state]

section TickFields
variable (c : Cfg) (s : State)

@[simp] theorem tick_lfsr : (tick c s).lfsr = lfsrAfterClap c s := by rw [tick_eq]
@[simp] theorem tick_tone : (tick c s).tone = s.tone := by rw [tick_eq]
@[simp] theorem tick_decayIdx : (tick c s).decayIdx = s.decayIdx := by rw [tick_eq]
@[simp] theorem tick_out : (tick c s).out = clampSample (mixSum (runVoices c s)) := rfl
@[simp] theorem tick_fault : (tick c s).fault = s.fault := by rw [tick_eq]
@[simp] theorem tick_kick : (tick c s).kick = kickAfter c s := by rw [tick_eq]
@[simp] theorem tick_snare : (tick c s).snare = snareAfter c s := by rw [tick_eq]
@[simp] theorem tick_hihat : (tick c s).hihat = hihatAfter c s := by rw [tick_eq]
@[simp] theorem tick_clap : (tick c s).clap = clapAfter c s := by rw [tick_eq]
@[simp] theorem tick_tom : (tick c s).tom = tomAfter c s := by rw [tick_eq]
@[simp] theorem tick_cowbell : (tick c s).cowbell = cowbellAfter c s := by rw [tick_eq]
@[simp] theorem tick_outValid : (tick c s).outValid = true := rfl
@[simp] theorem tick_pending : (tick c s).pending = s.pending := by rw [tick_eq]

end TickFields

end Sys2Proof.Laws
end

