-- ==== Sys2Proof/Laws/Trace.lean ====
section
/-! SUPPORT. Traces: how they compose, that no event reads the pulse on `out_valid`, and what the calls of the six
micro-operations in any order do. -/

namespace Sys2Proof.Laws

open Sys2Proof Sys2Proof.Machine

theorem traceWith_append (c : Cfg) (es fs : List Event) (s : State) :
    traceWith c (es ++ fs) s = traceWith c fs (traceWith c es s) := by
  induction es generalizing s with
  | nil => rfl
  | cons e rest ih => exact ih (eventWith c e s)

theorem outputStream_append (c : Cfg) (es fs : List Event) (s : State) :
    outputStream c (es ++ fs) s = outputStream c es s ++ outputStream c fs (traceWith c es s) := by
  induction es generalizing s with
  | nil => rfl
  | cons e rest ih =>
    cases e with
    | reset => exact ih _
    | tick => exact congrArg ((tick c s).out :: ·) (ih _)
    | cmd w => exact ih _

/-! No event reads the pulse. -/

theorem mixSum_runVoices_idle (c : Cfg) (s : State) : mixSum (runVoices c (idle s)) = mixSum (runVoices c s) := by
  rw [mixSum_runVoices, mixSum_runVoices]
  rfl

theorem tick_idle (c : Cfg) (s : State) : tick c (idle s) = tick c s := by
  rw [tick_eq, tick_eq, mixSum_runVoices_idle]
  rfl

theorem performWith_idle (c : Cfg) (i : Instr) (s : State) : performWith c i (idle s) = idle (performWith c i s) := by
  cases i <;> rfl

theorem commandWith_idle (c : Cfg) (w : CmdWord) (s : State) :
    commandWith c w (idle s) = idle (commandWith c w s) := by
  unfold commandWith
  cases decode w with
  | command i => exact performWith_idle c i s
  | reserved _ => rfl

theorem idle_idle (s : State) : idle (idle s) = idle s := rfl

theorem idle_eventWith_idle (c : Cfg) (e : Event) (s : State) :
    idle (eventWith c e (idle s)) = idle (eventWith c e s) := by
  cases e with
  | reset => rfl
  | tick => exact congrArg idle (tick_idle c s)
  | cmd w => exact (congrArg idle (commandWith_idle c w s)).trans (idle_idle _)

/-- Two states that differ in the pulse alone run any trace to states that differ in the pulse alone. -/
theorem idle_traceWith_congr (c : Cfg) (es : List Event) {s t : State} (h : idle s = idle t) :
    idle (traceWith c es s) = idle (traceWith c es t) := by
  induction es generalizing s t with
  | nil => exact h
  | cons e rest ih => exact ih (by rw [← idle_eventWith_idle c e s, h, idle_eventWith_idle])

/-- The output stream does not depend on the pulse. -/
theorem outputStream_congr (c : Cfg) (es : List Event) {s t : State} (h : idle s = idle t) :
    outputStream c es s = outputStream c es t := by
  induction es generalizing s t with
  | nil => rfl
  | cons e rest ih =>
    have hn : idle (eventWith c e s) = idle (eventWith c e t) := by
      rw [← idle_eventWith_idle c e s, h, idle_eventWith_idle]
    cases e with
    | reset => exact ih hn
    | tick =>
      have ht : tick c s = tick c t := by rw [← tick_idle c s, h, tick_idle]
      exact congrArg₂ List.cons (congrArg State.out ht) (ih hn)
    | cmd w => exact ih hn

/-- A command changes neither `OUT` nor the pulse (spec/48_commands.md R127). -/
theorem performWith_out (c : Cfg) (i : Instr) (s : State) :
    (performWith c i s).out = s.out ∧ (performWith c i s).outValid = s.outValid := by
  cases i <;> exact ⟨rfl, rfl⟩

theorem commandWith_out (c : Cfg) (w : CmdWord) (s : State) :
    (commandWith c w s).out = s.out ∧ (commandWith c w s).outValid = s.outValid := by
  unfold commandWith
  cases decode w with
  | command i => exact performWith_out c i s
  | reserved _ => exact ⟨rfl, rfl⟩

/-! The micro-operations in any order. -/

theorem runOrder_append (c : Cfg) (vs us : List Voice) (s : State) :
    runOrder c (vs ++ us) s =
      ((runOrder c us (runOrder c vs s).1).1, (runOrder c vs s).2 ++ (runOrder c us (runOrder c vs s).1).2) := by
  induction vs generalizing s with
  | nil => rfl
  | cons v rest ih => simp only [List.cons_append, runOrder, ih]

/-- The fixed order of R87 is one of them. -/
theorem runOrder_inOrder (c : Cfg) (s : State) :
    runOrder c Voice.inOrder s = ((runVoices c s).state, Voice.inOrder.map (runVoices c s).contribution) := rfl

end Sys2Proof.Laws
end

