-- ==== Sys2Proof/Laws/Pins.lean ====
section
/-! SUPPORT. What one clock cycle can do, said once, and what the output pins show after it. -/

namespace Sys2Proof.Laws

open Sys2Proof Sys2Proof.Machine

/-- The events of a cycle that gives rise to any: `RESET` alone, or at most a `TICK` and then at most a command. -/
theorem cycleEvents_cases {c : Cfg} {w : PinWatch} {p : PinCycle} {es : List Event} (h : cycleEvents c w p = .ok es) :
    (p.rstN = false ∧ es = [.reset]) ∨
    (p.rstN = true ∧ ∃ taken : Bool,
      es = (if p.tick then [.tick] else []) ++ (if taken then [.cmd p.cmd] else [])) := by
  unfold cycleEvents at h
  cases hr : p.rstN with
  | false => simp [hr] at h; exact .inl ⟨rfl, h.symm⟩
  | true =>
    simp only [hr, Bool.not_true, Bool.false_eq_true, if_false] at h
    split at h
    · cases h
    · split at h
      · cases h
      · exact .inr ⟨rfl, _, (Except.ok.inj h).symm⟩

/-- Everything one clock cycle does. -/
theorem clockCycle_ok {c : Cfg} {m m' : PinMachine} {p : PinCycle} {o : OutputPins}
    (h : clockCycle c m p = .ok (o, m')) :
    ∃ es, cycleEvents c m.watch p = .ok es ∧ o = outputPins c m.watch p m.state ∧
      m'.state = traceWith c es (idle m.state) ∧ m'.watch = watchAfter c m.watch p := by
  unfold clockCycle at h
  split at h
  · cases h
  · next es hes => cases h; exact ⟨es, hes, rfl, rfl, rfl⟩

/-- `OUT` and the pulse after the events of a cycle: the cycle's own `TICK`, if it has one, decides both. -/
theorem out_after_cycle (c : Cfg) (ticked taken : Bool) (w : CmdWord) (s : State) :
    (traceWith c ((if ticked then [.tick] else []) ++ (if taken then [.cmd w] else [])) (idle s)).out
        = (if ticked then (tick c s).out else s.out) ∧
    (traceWith c ((if ticked then [.tick] else []) ++ (if taken then [.cmd w] else [])) (idle s)).outValid
        = ticked := by
  cases ticked <;> cases taken <;>
    simp [traceWith, eventWith, tick_idle, commandWith_out, -tick_out]

end Sys2Proof.Laws
end

