-- ==== Sys2Proof/Laws/Step.lean ====
section
/-! SUPPORT. What a step does, by what is pending, and how the step relates to the functions of a configuration. -/

namespace Sys2Proof.Laws

open Sys2Proof Sys2Proof.Machine

theorem step_of_pending_nil {s : State} (h : s.pending = []) : step s = .next (idle s) := by
  simp [step, runNext, h]

theorem step_of_pending_cons {s : State} {e : Event} {rest : List Event} (h : s.pending = e :: rest) :
    step s = runEvent e (takeEvent rest s) := by
  simp [step, runNext, h]

@[simp] theorem withFetchWord_pending (s : State) (nbits w : Nat) :
    (s.withFetchWord nbits w).pending = .cmd (tableWord nbits w) :: s.pending := rfl

/-- A command's meaning is its effect under the reference configuration: none stops. -/
theorem exec_eq_performWith (i : Instr) (s : State) : exec i s = .next (performWith cfgRef i s) := by
  cases i <;> rfl

theorem runCommand_eq_commandWith (w : CmdWord) (s : State) :
    runCommand w s = .next (commandWith cfgRef w s) := by
  unfold runCommand commandWith
  cases decode w with
  | command i => exact exec_eq_performWith i s
  | reserved _ => rfl

/-- Every step answers a next state, by one of the four cases of what comes next. -/
theorem step_cases (s : State) :
    (s.pending = [] ∧ step s = .next (idle s)) ∨
    (∃ rest, s.pending = .reset :: rest ∧ step s = .next (resetEngine cfgRef (takeEvent rest s))) ∨
    (∃ rest, s.pending = .tick :: rest ∧ step s = .next (tick cfgRef (takeEvent rest s))) ∨
    (∃ w rest, s.pending = .cmd w :: rest ∧ step s = .next (commandWith cfgRef w (takeEvent rest s))) := by
  cases h : s.pending with
  | nil => exact .inl ⟨rfl, step_of_pending_nil h⟩
  | cons e rest =>
    cases e with
    | reset => exact .inr (.inl ⟨rest, rfl, step_of_pending_cons h⟩)
    | tick => exact .inr (.inr (.inl ⟨rest, rfl, step_of_pending_cons h⟩))
    | cmd w =>
      exact .inr (.inr (.inr ⟨w, rest, rfl, (step_of_pending_cons h).trans (runCommand_eq_commandWith w _)⟩))

end Sys2Proof.Laws
end

