-- ==== Sys2Proof/Machine/TraceText.lean ====
section
/-! DEFINITION. Reading the textual form of a trace (spec/30_encoding.md R64, R65): one event per line, `#`
introduces a numeral, decimal or `0x` hexadecimal, `;` starts a comment, mnemonics are upper case. What R64 leaves
to a reader (blanks are spaces and tabs, empty lines spell nothing) is log 12. -/

namespace Sys2Proof.Machine

open Sys2Proof

/-- The characters before a `;`. -/
def stripComment : List Char → List Char
  | [] => []
  | ch :: rest => if ch = ';' then [] else ch :: stripComment rest

/-- Characters cut at every one that satisfies `p`; the pieces may be empty. -/
def cutAt (p : Char → Bool) : List Char → List (List Char)
  | [] => [[]]
  | ch :: rest =>
    match cutAt p rest with
    | [] => [[ch]]
    | piece :: more => if p ch then [] :: piece :: more else (ch :: piece) :: more

/-- The blank-separated words of a line. -/
def lineWords (cs : List Char) : List (List Char) :=
  (cutAt (fun ch => ch = ' ' || ch = '\t' || ch = '\r') cs).filter fun piece => !piece.isEmpty

/-- The value of a decimal digit. -/
def decimalDigit (ch : Char) : Option Nat :=
  if '0'.toNat ≤ ch.toNat ∧ ch.toNat ≤ '9'.toNat then some (ch.toNat - '0'.toNat) else none

/-- The value of a hexadecimal digit, either case. -/
def hexDigit (ch : Char) : Option Nat :=
  if 'A'.toNat ≤ ch.toNat ∧ ch.toNat ≤ 'F'.toNat then some (ch.toNat - 'A'.toNat + 10)
  else if 'a'.toNat ≤ ch.toNat ∧ ch.toNat ≤ 'f'.toNat then some (ch.toNat - 'a'.toNat + 10)
  else decimalDigit ch

/-- The digits of a numeral, read onto the value so far. -/
def readDigits (base : Nat) (digit : Char → Option Nat) : List Char → Nat → Option Nat
  | [], acc => some acc
  | ch :: rest, acc =>
    match digit ch with
    | some d => readDigits base digit rest (acc * base + d)
    | none => none

/-- A numeral: decimal, or `0x` and hexadecimal digits. -/
def readNumeral : List Char → Option Nat
  | [] => none
  | '0' :: 'x' :: [] => none
  | '0' :: 'x' :: ds => readDigits 16 hexDigit ds 0
  | ds => readDigits 10 decimalDigit ds 0

/-- A `#` operand. -/
def readOperand : List Char → Option Nat
  | '#' :: cs => readNumeral cs
  | _ => none

/-- The repetition `*n` of `TICK *n`: a decimal numeral (R64). -/
def readRepeat : List Char → Option Nat
  | '*' :: [] => none
  | '*' :: cs => readDigits 10 decimalDigit cs 0
  | _ => none

/-- The lines that take one `#` operand. -/
def operandLines : List (List Char × (Nat → TraceLine)) :=
  [("TRIG.KICK".toList, .trigKick), ("TRIG.SNARE".toList, .trigSnare), ("TRIG.HHC".toList, .trigHhc),
   ("TRIG.HHO".toList, .trigHho), ("TRIG.CLAP".toList, .trigClap), ("TRIG.TOM".toList, .trigTom),
   ("TRIG.COWBELL".toList, .trigCowbell), ("SET.TONE".toList, .setTone), ("SET.DECAY".toList, .setDecay),
   ("CMD".toList, .rawCmd), ("TRIG.HIHAT".toList, .trigHihat), ("SET.DECAYMASK".toList, .setDecayMask),
   ("TRIG.ALL".toList, .trigAll)]

/-- The lines that take no operand. -/
def plainLines : List (List Char × TraceLine) :=
  [("RESET".toList, .reset), ("TICK".toList, .tick), ("NOP".toList, .nop)]

/-- The entry of a word in a table of words. -/
def findWord {α : Type} (word : List Char) : List (List Char × α) → Option α
  | [] => none
  | (k, a) :: rest => if k = word then some a else findWord word rest

/-- One line: nothing for an empty or comment line, none for a line of no known form. -/
def parseLine (cs : List Char) : Option (List TraceLine) :=
  match lineWords (stripComment cs) with
  | [] => some []
  | [word] => (findWord word plainLines).map fun l => [l]
  | [word, arg] =>
    if word = "TICK".toList then (readRepeat arg).map fun n => [.tickTimes n]
    else
      match findWord word operandLines, readOperand arg with
      | some mk, some n => some [mk n]
      | _, _ => none
  | _ => none

/-- The lines of a text. -/
def parseLines : List (List Char) → Option (List TraceLine)
  | [] => some []
  | l :: rest =>
    match parseLine l, parseLines rest with
    | some ls, some more => some (ls ++ more)
    | _, _ => none

/-- A textual trace. -/
def parseTrace (text : String) : Option (List TraceLine) := parseLines (cutAt (fun ch => ch = '\n') text.toList)

/-- The events a textual trace stands for; none if a line is of no known form or ill-formed. -/
def readTrace (text : String) : Option (List Event) := (parseTrace text).bind linesEvents

end Sys2Proof.Machine
end

