-- ==== Sys2Proof/Tests/Slice0.lean ====
section
/-! SUPPORT. Small tests, each expected value taken from spec/95_test_vectors.md or the rule named, and for every
statement of Certificates/Slice0/Obligations.lean with hypotheses a witness that meets them. -/

namespace Sys2Proof.Tests

open Sys2Proof Sys2Proof.Machine

/-- The reset state with these events to come. -/
def awaiting (es : List Event) : State := { State.reset with pending := es }

/-- The reset state with this Kick. -/
def withKick (k : Kick) : State := { State.reset with kick := k }

/-! ## Well-formedness: each check refuses an ill-formed term -/

theorem test_wf_reference : cfgRef.wf = true := by decide
theorem test_wf_seed_zero : Cfg.wf { cfgRef with lfsrSeed := 0 } = false := by decide
theorem test_wf_kick_div_zero : Cfg.wf { cfgRef with kickDiv := 0 } = false := by decide
theorem test_wf_noise_mask : Cfg.wf { cfgRef with snNoiseMask := 0x1FF } = false := by decide
theorem test_wf_noise_mask_zero : Cfg.wf { cfgRef with snNoiseMask := 0 } = false := by decide
theorem test_wf_speed_closed : Cfg.wf { cfgRef with hhSpeedClosed := 2 } = false := by decide
theorem test_wf_speed_open : Cfg.wf { cfgRef with hhSpeedOpen := 0x1E } = false := by decide
theorem test_wf_period : Cfg.wf { cfgRef with clPeriod := 255 } = false := by decide
theorem test_wf_tom_div_zero : Cfg.wf { cfgRef with tmDiv := 0 } = false := by decide
theorem test_wf_cowbell_phases : Cfg.wf { cfgRef with cbPh2_0 := 0 } = false := by decide
theorem test_wf_line_amp : (TraceLine.trigKick 0x10000).wf = false := by decide
theorem test_wf_line_idx : (TraceLine.setDecay 4).wf = false := by decide
theorem test_wf_line_mask : (TraceLine.setDecayMask 5).wf = false := by decide
theorem test_wf_line_word : (TraceLine.rawCmd 0x1000000).wf = false := by decide

/-! ## Decoding: words written bit by bit from R59 and R60 -/

theorem test_decode_nop : decode 0b0000_0000_0000000000000000 = .command .nop := by decide
theorem test_decode_kick : decode 0b0001_0000_1111111111111111 = .command (.trigKick 0xFFFF) := by decide
theorem test_decode_snare : decode 0b0001_0001_1000000000000000 = .command (.trigSnare 0x8000) := by decide
theorem test_decode_hhc : decode 0b0001_0010_1000000000000000 = .command (.trigHhc 0x8000) := by decide
theorem test_decode_clap : decode 0b0001_0011_0000000000000001 = .command (.trigClap 1) := by decide
theorem test_decode_tom : decode 0b0001_0100_1010101111001101 = .command (.trigTom 0xABCD) := by decide
theorem test_decode_cowbell : decode 0b0001_0101_0100000000000000 = .command (.trigCowbell 0x4000) := by decide
theorem test_decode_hho : decode 0b0001_1010_1000000000000000 = .command (.trigHho 0x8000) := by decide
theorem test_decode_tone : decode 0b0010_0000_0000001111101000 = .command (.setTone 1000) := by decide
theorem test_decode_decay : decode 0b0010_0001_0000000000000010 = .command (.setDecay 2) := by decide

/-- The reserved words of V12, each with its class in R62. -/
theorem test_decode_reserved :
    decode 0x000001 = .reserved .nopBits ∧ decode 0x0F0000 = .reserved .nopBits ∧
    decode 0x160000 = .reserved .triggerSelector ∧ decode 0x170000 = .reserved .triggerSelector ∧
    decode 0x180000 = .reserved .triggerSelector ∧ decode 0x1B0000 = .reserved .triggerSelector ∧
    decode 0x1F0000 = .reserved .triggerSelector ∧ decode 0x210004 = .reserved .decayData ∧
    decode 0x21FFFF = .reserved .decayData ∧ decode 0x220000 = .reserved .parameterSelector ∧
    decode 0x300000 = .reserved .opcode ∧ decode 0xFFFFFF = .reserved .opcode := by decide

theorem test_table_word : decodeTableWord 24 0x10FFFF = some (.trigKick 0xFFFF) := by decide

/-- Reading a textual trace (V12, R65): comments, both kinds of numeral, a pseudo-operation. -/
theorem test_read_trace :
    readTrace "RESET ; start\nTRIG.HIHAT #5\nSET.DECAYMASK #7\nTICK *2\nCMD #0x210004" =
      some [.reset, .cmd 0x120005, .cmd 0x210002, .tick, .tick, .cmd 0x210004] := by decide

theorem test_read_ill_formed : readTrace "SET.DECAY #4" = none := by decide

/-! ## Commands: the worked examples of each rule, as first steps after reset -/

theorem test_step_kick : step (State.reset.withFetchWord 24 0x10FFFF) = .next
    (withKick { act := true, vol := 65535, phase := 0, step := 700, cnt := 0, prev := 0 }) := rfl

/-- P6: a re-trigger at half accent keeps `K_CNT` and `K_PREV`. -/
theorem test_kick_retrigger :
    (trigKick cfgRef 0x7FFF
      (withKick { act := true, vol := 65024, phase := 2070, step := 685, cnt := 3, prev := 173 })).kick
      = { act := true, vol := 32767, phase := 0, step := 700, cnt := 3, prev := 173 } := by decide

theorem test_trig_snare : (trigSnare cfgRef 0x8000 State.reset).snare
    = { act := true, nvol := 24576, tvol := 20480, phase := 0, cnt := 0 } := by decide

theorem test_trig_hhc : (trigHhc cfgRef 0xFFFF State.reset).hihat
    = { act := true, vol := 32768, ph1 := 0, ph2 := 0, speed := 1, cnt := 0 } := by decide

theorem test_trig_hho : (trigHho cfgRef 0xFFFF State.reset).hihat
    = { act := true, vol := 32768, ph1 := 0, ph2 := 0, speed := 0x1F, cnt := 0 } := by decide

theorem test_trig_clap : (trigClap cfgRef 0xFFFF State.reset).clap
    = { act := true, vol := 49152, stut := 3, timer := 0, cnt := 0 } := by decide

/-- V9's corner case: the trigger's sum wraps. -/
theorem test_trig_tom_wraps : (trigTom cfgRef 0xFFFF (setTone 65400 State.reset)).tom.step = 64 := by decide

/-- P7. -/
theorem test_trig_cowbell : (trigCowbell cfgRef 0x4000 State.reset).cowbell
    = { act := true, vol := 9216, ph1 := 0, ph2 := 16384, cnt := 0 } := by decide

theorem test_set_tone : step (State.reset.withFetchWord 24 0x2003E8) = .next { State.reset with tone := 1000 } := rfl

theorem test_set_decay_mask : decayMask (setDecay 2 State.reset).decayIdx = 7 := by decide

/-- P5: a reserved word sets `FAULT`, nothing else. -/
theorem test_reserved_word : step (State.reset.withFetchWord 24 0x160000) = .next { State.reset with fault := true } := rfl

/-! ## Ticks: rows of V5 to V10 -/

/-- V5, tick 2. -/
theorem test_kick_tick :
    kickTick cfgRef 700 1 { act := true, vol := 65535, phase := 695, step := 695, cnt := 1, prev := 139 }
      = ({ act := true, vol := 65024, phase := 1385, step := 690, cnt := 2, prev := 156 }, 147) := by decide

/-- V6, tick 8. -/
theorem test_snare_tick :
    snareTick cfgRef 700 1 0xC2C4 { act := true, nvol := 48009, tvol := 39070, phase := 2450, cnt := 7 }
      = ({ act := true, nvol := 47634, tvol := 38460, phase := 2800, cnt := 8 }, 250) := by decide

/-- V7, tick 4: the output uses the volume before the decay. -/
theorem test_hihat_tick :
    hihatTick cfgRef 1 0x1C4E { act := true, vol := 32256, ph1 := 0xC900, ph2 := 0x3B00, speed := 1, cnt := 3 }
      = ({ act := true, vol := 31752, ph1 := 0x0C00, ph2 := 0xA400, speed := 1, cnt := 4 }, 69) := by decide

/-- V8, tick 202: the stutter decrement. -/
theorem test_clap_stutter_end :
    clapTick cfgRef 1 true { act := true, vol := 49152, stut := 3, timer := 201, cnt := 0 }
      = ({ act := true, vol := 49152, stut := 2, timer := 0, cnt := 0 }, 0) := by decide

/-- V8, tick 608: the first decay, and the output with the new volume. -/
theorem test_clap_sustain :
    clapTick cfgRef 1 true { act := true, vol := 49152, stut := 0, timer := 0, cnt := 1 }
      = ({ act := true, vol := 48384, stut := 0, timer := 0, cnt := 2 }, 189) := by decide

/-- V9, tick 2. -/
theorem test_tom_tick :
    tomTick cfgRef 700 1 { act := true, vol := 57344, phase := 893, step := 893, cnt := 1 }
      = ({ act := true, vol := 56448, phase := 1780, step := 887, cnt := 2 }, 140) := by decide

/-- V10, tick 2. -/
theorem test_cowbell_tick :
    cowbellTick cfgRef 700 1 { act := true, vol := 36864, ph1 := 850, ph2 := 17659, cnt := 1 }
      = ({ act := true, vol := 36576, ph1 := 1700, ph2 := 18934, cnt := 2 }, 66) := by decide

/-- P4, the first tick of all six voices. -/
theorem test_tick_all_voices :
    (tick cfgRef (traceWith cfgRef (expandLine (.trigAll 0xFFFF)) State.reset)).out = 230 ∧
    (tick cfgRef (traceWith cfgRef (expandLine (.trigAll 0xFFFF)) State.reset)).lfsr = 0x389C := by decide

/-- V11: 510, 511, 512 and 1715 all give 255; 1 gives 0; a negative sum would give 0 (R89). -/
theorem test_clamp : clampSample 1 = 0 ∧ clampSample 461 = 230 ∧ clampSample 510 = 255 ∧ clampSample 511 = 255 ∧
    clampSample 512 = 255 ∧ clampSample 1715 = 255 ∧ clampSample 0x8000 = 0 := by decide

/-- V4. -/
theorem test_wave : waveAt cfgRef 0x7FFF = 122 ∧ waveAt cfgRef 0x8100 = 134 ∧ waveAt cfgRef 17659 = 104 ∧
    waveAt cfgRef 0x2000 = 250 ∧ waveAt cfgRef 0x6000 = 6 := by decide

/-- A trace that does not begin with `RESET` is refused (R174). -/
theorem test_trace_without_reset : evalTrace cfgRef [.tick] = .error .noReset := rfl

/-- R149's own list of logical states, with a host whose accent is constant. -/
theorem test_hysteresis :
    (onLevels { onThreshold := 10, offThreshold := 3, accBase := 0, accK := 0, hhOpen := false } RefHost.start
      [0, 5, 11, 9, 3, 2]).1 = [false, false, true, true, true, false] := by decide

/-- T7. -/
theorem test_map_decay : (decayIndexOf 63, decayIndexOf 64, decayIndexOf 128, decayIndexOf 255) = (0, 1, 2, 2) := by
  decide

/-- R146: a falling edge wraps the index modulo 6. -/
theorem test_select_wraps : (onSelect { gate := false, voice := 5, prevLevel := true } false).voice = 0 := by decide

/-! ## Witnesses -/

theorem witness_SetDecaySelectsTheMask : ∃ data : Word, 3 < data.toNat := ⟨4, by decide⟩

theorem witness_DecodeAndEncodeAgree : ∃ w i, decode w = .command i := ⟨0x1A0001, .trigHho 1, by decide⟩

theorem witness_ReservedWordsAreTheListedClasses : ∃ w, isReserved w = true ∧ decode w = .reserved .decayData :=
  ⟨0x210004, by decide⟩

theorem witness_TriggersOfDifferentVoicesCommute : ∃ (i j : Instr) (v u : Voice),
    i.voice = some v ∧ j.voice = some u ∧ v ≠ u :=
  ⟨.trigKick 1, .trigHho 2, .kick, .hihat, rfl, rfl, by decide⟩

theorem witness_StepRunsTheNextEvent :
    (∃ (s : State) (w : CmdWord) (rest : List Event) (i : Instr), s.pending = .cmd w :: rest ∧ decode w = .command i) ∧
    (∃ (s : State) (w : CmdWord) (rest : List Event) (why : Reserved),
      s.pending = .cmd w :: rest ∧ decode w = .reserved why) ∧
    (∃ (s : State) (rest : List Event), s.pending = .tick :: rest) ∧
    (∃ (s : State) (rest : List Event), s.pending = .reset :: rest) ∧
    (∃ s : State, s.pending = []) ∧
    ∃ (nbits w : Nat) (i : Instr), decode (tableWord nbits w) = .command i :=
  ⟨⟨awaiting [.cmd 0x2003E8, .tick], 0x2003E8, [.tick], .setTone 1000, rfl, by decide⟩,
   ⟨awaiting [.cmd 0x160000], 0x160000, [], .triggerSelector, rfl, by decide⟩,
   ⟨awaiting [.tick], [], rfl⟩, ⟨awaiting [.reset], [], rfl⟩, ⟨awaiting [], rfl⟩,
   ⟨24, 0x210003, .setDecay 3, by decide⟩⟩

theorem witness_IllegalCommandIsStickyAndHarmless :
    (∃ s t n : State, nextIsReserved s ∧ step s = .next t ∧
      step { s with pending := .cmd 0x000000 :: s.pending.tail } = .next n) ∧
    (∃ s t : State, step s = .next t ∧ s.fault = true ∧ t.fault = false) ∧
    ∃ s t : State, step s = .next t ∧ s.fault = false ∧ t.fault = true :=
  ⟨⟨awaiting [.cmd 0xFFFFFF, .tick], _, _, ⟨0xFFFFFF, [.tick], rfl, by decide⟩, rfl, rfl⟩,
   ⟨{ awaiting [.reset] with fault := true }, _, rfl, rfl, by decide⟩,
   ⟨awaiting [.cmd 0x300000], _, rfl, rfl, by decide⟩⟩

/-- A sounding Snare about to be ticked, and each of the other writers. -/
theorem witness_SharedRegistersHaveOnlyTheirWriters :
    (∃ s t : State, step s = .next t ∧ t.lfsr ≠ s.lfsr ∧ t.out ≠ s.out) ∧
    (∃ s t : State, step s = .next t ∧ t.tone ≠ s.tone) ∧
    (∃ s t : State, step s = .next t ∧ t.decayIdx ≠ s.decayIdx) ∧
    ∃ s t : State, step s = .next t ∧ t.fault ≠ s.fault :=
  ⟨⟨{ trigSnare cfgRef 0xFFFF State.reset with pending := [.tick] }, _, rfl, by decide⟩,
   ⟨awaiting [.cmd 0x2003E8], _, rfl, by decide⟩, ⟨awaiting [.cmd 0x210002], _, rfl, by decide⟩,
   ⟨awaiting [.cmd 0x000001], _, rfl, by decide⟩⟩

theorem witness_VoicesAreWrittenByTheirOwnersOnly :
    (∃ s t : State, step s = .next t ∧ t.kick ≠ s.kick) ∧ (∃ s t : State, step s = .next t ∧ t.snare ≠ s.snare) ∧
    (∃ s t : State, step s = .next t ∧ t.hihat ≠ s.hihat) ∧ (∃ s t : State, step s = .next t ∧ t.clap ≠ s.clap) ∧
    (∃ s t : State, step s = .next t ∧ t.tom ≠ s.tom) ∧ ∃ s t : State, step s = .next t ∧ t.cowbell ≠ s.cowbell :=
  ⟨⟨awaiting [.cmd 0x10FFFF], _, rfl, by decide⟩, ⟨awaiting [.cmd 0x11FFFF], _, rfl, by decide⟩,
   ⟨awaiting [.cmd 0x1AFFFF], _, rfl, by decide⟩, ⟨awaiting [.cmd 0x13FFFF], _, rfl, by decide⟩,
   ⟨awaiting [.cmd 0x14FFFF], _, rfl, by decide⟩, ⟨awaiting [.cmd 0x15FFFF], _, rfl, by decide⟩⟩

/-- All six voices with volume 1 and their gates about to fire. -/
def dying : State :=
  { State.reset with
    kick := { act := true, vol := 1, phase := 0, step := 35, cnt := 1, prev := 0 }
    snare := { act := true, nvol := 1, tvol := 0, phase := 0, cnt := 1 }
    hihat := { act := true, vol := 1, ph1 := 0, ph2 := 0, speed := 1, cnt := 1 }
    clap := { act := true, vol := 1, stut := 0, timer := 0, cnt := 1 }
    tom := { act := true, vol := 1, phase := 0, step := 70, cnt := 1 }
    cowbell := { act := true, vol := 1, ph1 := 0, ph2 := 0, cnt := 1 }
    pending := [.tick] }

theorem witness_ActiveFlagsRiseByTriggerAndFallAtSilence :
    (∃ s t : State, step s = .next t ∧ s.active .kick = false ∧ t.active .kick = true) ∧
    ∃ t : State, step dying = .next t ∧ ∀ v ∈ [Voice.kick, .snare, .hihat, .clap, .tom, .cowbell],
      dying.active v = true ∧ t.active v = false :=
  ⟨⟨awaiting [.cmd 0x10FFFF], _, rfl, rfl, rfl⟩, ⟨_, rfl, by decide⟩⟩

/-- A tick triggers no voice. -/
theorem witness_VolumesNeverRiseBetweenTriggers :
    ∃ t : State, step dying = .next t ∧ ∀ v : Voice, ¬ nextTriggers dying v := by
  refine ⟨_, rfl, ?_⟩
  rintro v ⟨i, ⟨w, rest, h, _⟩, _⟩
  simp [dying] at h

theorem inv_dying : Inv dying := by constructor <;> decide

theorem witness_EveryStepKeepsTheInvariant : ∃ t : State, Inv dying ∧ step dying = .next t := ⟨_, inv_dying, rfl⟩

theorem witness_GateFiresOncePerPeriod : (8 : Nat) ≤ 8 ∧ gateFires 255 0xFF = true ∧ gateFires 3 0x1F = false := by
  decide

theorem witness_ScaledSampleIsBelowTheSample : (255 : Nat) ≤ 255 ∧ 0 < 255 ∧ (255 : Word).toNat < 256 := by decide

theorem witness_SweepOnlyGoesDown :
    (∃ step target : Word, step.toNat ≤ target.toNat) ∧
    ∃ (step target : Word) (sh : Fin 16), target.toNat < step.toNat ∧ (sweep step target sh).toNat < target.toNat :=
  ⟨⟨64, 6540, by decide⟩, ⟨2011, 2000, 7, by decide⟩⟩

theorem witness_TriggerVolumeScalesLinearly : ∃ amp amp' : Word, amp.toNat ≤ amp'.toNat := ⟨0, 65535, by decide⟩

theorem witness_WaveIndexIgnoresTheTopPhaseBit : ∃ inc k : Nat, 0 < inc ∧ 0 < k ∧ k * inc % 32768 = 0 :=
  ⟨512, 64, by decide⟩

theorem witness_LfsrVisitsEveryNonzeroValue : ∃ (n : Nat) (l : Word), 0 < n ∧ n < 65535 ∧ l ≠ 0 :=
  ⟨65534, 1, by decide⟩

/-- Both cases of each of the five gated sample rules. -/
theorem witness_SampleRules :
    (State.reset.kick.act = false ∧ State.reset.snare.act = false ∧ State.reset.hihat.act = false ∧
      State.reset.clap.act = false ∧ State.reset.tom.act = false ∧ State.reset.cowbell.act = false) ∧
    (dying.kick.act = true ∧ dying.snare.act = true ∧ dying.hihat.act = true ∧ dying.tom.act = true ∧
      dying.cowbell.act = true) := by decide

/-- The Clap's cases at their boundaries: timer 59, 60, 200, 201, and Sustaining. -/
theorem witness_ClapSampleFollowsItsRule :
    ∀ p ∈ [((3 : BitVec 2), (59 : Byte)), (3, 60), (1, 200), (1, 201), (0, 0)], ∃ s : State,
      s.clap.act = true ∧ s.clap.stut = p.1 ∧ s.clap.timer = p.2 :=
  fun p _ => ⟨{ State.reset with clap := { act := true, vol := 49152, stut := p.1, timer := p.2, cnt := 0 } },
    rfl, rfl, rfl⟩

theorem witness_ContributionsAreBounded : cfgRef.wf = true ∧ dying.kick.prev.toNat ≤ 249 := by decide

theorem witness_QuiescentEngineStaysQuiescent : State.reset.quiescent = true := by decide

/-- P2 and V7 beside each other: with the Snare active, the Hi-hat's first sample is 28; alone it is 56. -/
theorem test_hihat_hears_the_snare :
    (runVoices cfgRef (trigHhc cfgRef 0xFFFF (trigSnare cfgRef 0x8000 State.reset))).c2 = 28 ∧
    (runVoices cfgRef (trigHhc cfgRef 0xFFFF State.reset)).c2 = 56 := by decide

/-- Two states that differ in the Kick agree on the noise side; two that differ in the Snare's volumes agree on all that
the other voices' clauses ask. -/
theorem witness_VoicesMeetInTheNoiseSourceOnly :
    (∃ s t : State, s ≠ t ∧ agreeOnNoiseSide s t) ∧
    ∃ s t : State, s ≠ t ∧ s.decayIdx = t.decayIdx ∧ s.tone = t.tone ∧ s.lfsr = t.lfsr ∧ s.snare.act = t.snare.act ∧
      s.kick = t.kick ∧ s.hihat = t.hihat ∧ s.clap = t.clap ∧ s.tom = t.tom ∧ s.cowbell = t.cowbell :=
  ⟨⟨trigKick cfgRef 0xFFFF State.reset, State.reset, by decide, ⟨rfl, rfl, rfl, rfl, rfl, rfl⟩⟩,
   ⟨trigSnare cfgRef 0xFFFF State.reset, trigSnare cfgRef 0x8000 State.reset, by decide⟩⟩

/-- An order that moves each of Kick, Tom and Cowbell past a noise voice. -/
theorem witness_OnlyTheNoiseVoicesOrderMatters : ∃ order : List Voice,
    order.Perm Voice.inOrder ∧ order.filter Voice.isNoise = [.snare, .hihat, .clap] ∧ order ≠ Voice.inOrder :=
  ⟨[.tom, .snare, .cowbell, .hihat, .clap, .kick], by decide⟩

theorem witness_ClapBurstsForSixHundredSixTicks :
    ∃ s : State, s.clap.act = true ∧ s.clap.stut = 3 ∧ s.clap.timer = 0 :=
  ⟨trigClap cfgRef 0xFFFF State.reset, by decide⟩

theorem witness_EveryNoteEnds : Inv dying ∧ 32 * 65535 ≤ 2097120 :=
  ⟨inv_dying, by decide⟩

theorem witness_OutputStreamIsWhatEachTickWrites :
    (∃ s t : State, s ≠ t ∧ s.pending = t.pending) ∧
    ∃ before after : List Event, [Event.tick, .cmd 0, .tick] = before ++ .tick :: after ∧ before.count .tick = 1 :=
  ⟨⟨State.reset, setTone 1000 State.reset, by decide⟩, ⟨[.tick, .cmd 0], [], rfl, by decide⟩⟩

/-- The engine after `TRIG.KICK #0xFFFF` (V5), no cycle watched yet. -/
def kickSounding : PinMachine := { state := trigKick cfgRef 0xFFFF State.reset, watch := PinWatch.fresh }

/-- Four cycles, the first with a strobe and a command (`SET.TONE #1000`) together, the third with a `NOP`. -/
def strobeWithCommand : List PinCycle :=
  [{ rstN := true, tick := true, cmdValid := true, cmd := 0x2003E8 },
   { rstN := true, tick := false, cmdValid := false, cmd := 0 },
   { rstN := true, tick := false, cmdValid := true, cmd := 0 },
   { rstN := true, tick := false, cmdValid := false, cmd := 0 }]

/-- R66 with V5's first sample, 34: `out_valid` is high in the cycle after the strobe and in no other, the command taken
in the strobe's cycle notwithstanding; `out` holds the sample. `T_TICK` is 1 here. -/
theorem test_out_valid_is_one_cycle :
    (clockCycles { cfgRef with tTick := 1 } kickSounding strobeWithCommand).map
        (fun r => (r.1.map (fun o => (o.outValid, o.out)), r.2.state.tone)) =
      .ok ([(false, 0), (true, 34), (false, 34), (false, 34)], 1000) := rfl

theorem witness_OutValidMarksTheCycleAfterATick : ∃ (c : Cfg) (m m' : PinMachine) (p q r : PinCycle) (o : OutputPins),
    clockCycle c m p = .ok (o, m') ∧ p.tick = true ∧ q.rstN = true ∧ r.rstN = false :=
  ⟨cfgRef, kickSounding, _, { rstN := true, tick := true, cmdValid := true, cmd := 0x2003E8 },
    { rstN := true, tick := false, cmdValid := false, cmd := 0 },
    { rstN := false, tick := false, cmdValid := false, cmd := 0 }, _, rfl, rfl, rfl, rfl⟩

theorem witness_ClockCyclesShowTheOutputStream : ∃ (c : Cfg) (m' : PinMachine) (os : List OutputPins),
    clockCycles c kickSounding strobeWithCommand = .ok (os, m') ∧ (∀ p ∈ strobeWithCommand, p.rstN = true) :=
  ⟨{ cfgRef with tTick := 1 }, _, _, rfl, by decide⟩

/-- One cycle for each clause, with an engine whose `T_TICK` is 100 cycles. -/
theorem witness_ResetOverTickOverCommand :
    ∃ (c : Cfg) (busy free : PinWatch) (low both tickOnly cmdOnly : PinCycle),
      low.rstN = false ∧ engineBusy c busy = true ∧ engineBusy c free = false ∧
      (tickOnly.rstN = true ∧ offerStable busy tickOnly = true ∧ tickOnly.tick = true) ∧
      (both.rstN = true ∧ offerStable free both = true ∧ both.tick = true ∧ both.cmdValid = true) ∧
      (cmdOnly.rstN = true ∧ offerStable busy cmdOnly = true ∧ cmdOnly.tick = false ∧ cmdOnly.cmdValid = true) :=
  ⟨{ cfgRef with tTick := 100 }, { sinceStrobe := some 99, offered := none }, PinWatch.fresh,
    { rstN := false, tick := true, cmdValid := true, cmd := 0 },
    { rstN := true, tick := true, cmdValid := true, cmd := 0x10FFFF },
    { rstN := true, tick := true, cmdValid := false, cmd := 0 },
    { rstN := true, tick := false, cmdValid := true, cmd := 0x10FFFF }, by decide⟩

theorem witness_HysteresisExampleTriggersOnce : ∃ (h : HostCfg) (r : RefHost),
    h.onThreshold = 10 ∧ h.offThreshold = 3 ∧ r.gate = false :=
  ⟨{ onThreshold := 10, offThreshold := 3, accBase := 8000, accK := 200, hhOpen := true }, RefHost.start, by decide⟩

theorem witness_ReferenceHostStaysInRange : ∃ (h : HostCfg) (v : Byte), h.onThreshold.toNat < v.toNat :=
  ⟨{ onThreshold := 20, offThreshold := 5, accBase := 60000, accK := 1000, hhOpen := false }, 255, by decide⟩

end Sys2Proof.Tests
end

section
/-! Proofs about the step and the traces it runs (spec/00_scope.md R5, R11; spec/20_memory.md R50). -/

namespace Sys2Proof.Proofs

open Sys2Proof Sys2Proof.Machine Sys2Proof.Laws

/-! ### The events still to come are no operand of any event's rule -/

theorem takeEvent_pending_self (s : State) : takeEvent s.pending s = s := rfl

theorem takeEvent_takeEvent (es fs : List Event) (s : State) : takeEvent es (takeEvent fs s) = takeEvent es s := rfl

theorem mixSum_runVoices_takeEvent (c : Cfg) (rest : List Event) (s : State) :
    mixSum (runVoices c (takeEvent rest s)) = mixSum (runVoices c s) := by
  rw [mixSum_runVoices, mixSum_runVoices]
  rfl

theorem tick_takeEvent (c : Cfg) (rest : List Event) (s : State) :
    tick c (takeEvent rest s) = takeEvent rest (tick c s) := by
  rw [tick_eq, tick_eq, mixSum_runVoices_takeEvent]
  rfl

theorem performWith_takeEvent (c : Cfg) (i : Instr) (rest : List Event) (s : State) :
    performWith c i (takeEvent rest s) = takeEvent rest (performWith c i s) := by
  cases i <;> rfl

theorem commandWith_takeEvent (c : Cfg) (w : CmdWord) (rest : List Event) (s : State) :
    commandWith c w (takeEvent rest s) = takeEvent rest (commandWith c w s) := by
  unfold commandWith
  cases decode w with
  | command i => exact performWith_takeEvent c i rest s
  | reserved _ => rfl

theorem eventWith_takeEvent (c : Cfg) (e : Event) (rest : List Event) (s : State) :
    eventWith c e (takeEvent rest s) = takeEvent rest (eventWith c e s) := by
  cases e with
  | reset => rfl
  | tick => exact tick_takeEvent c rest s
  | cmd w => exact commandWith_takeEvent c w rest s

theorem traceWith_takeEvent (c : Cfg) (es rest : List Event) (s : State) :
    traceWith c es (takeEvent rest s) = takeEvent rest (traceWith c es s) := by
  induction es generalizing s with
  | nil => rfl
  | cons e es ih => rw [traceWith, eventWith_takeEvent, ih, traceWith]

/-! ### The step machine runs the trace -/

theorem runEvent_eq_eventWith (e : Event) (s : State) : runEvent e s = .next (eventWith cfgRef e s) := by
  cases e with
  | reset => rfl
  | tick => rfl
  | cmd w => exact runCommand_eq_commandWith w s

/-- A step with an event pending applies that event's rule and drops it from the list. -/
theorem step_eq_eventWith {s : State} {e : Event} {rest : List Event} (h : s.pending = e :: rest) :
    step s = .next (takeEvent rest (eventWith cfgRef e s)) := by
  rw [step_of_pending_cons h, runEvent_eq_eventWith, eventWith_takeEvent]

theorem run_succ_of_step_next {M : Host.Core} {s t : M.State} (k : Nat) (h : M.step s = .next t) :
    M.run (k + 1) s = M.run k t := by
  simp only [Host.Core.run, h]

theorem run_pending_eq_traceWith (es : List Event) {s : State} (h : s.pending = es) :
    Host.Core.run core es.length s = .next (takeEvent [] (traceWith cfgRef es s)) := by
  induction es generalizing s with
  | nil =>
    have hs : takeEvent [] s = s := by rw [← h, takeEvent_pending_self]
    exact congrArg Host.Outcome.next hs.symm
  | cons e rest ih =>
    have hstep : core.step s = .next (takeEvent rest (eventWith cfgRef e s)) := step_eq_eventWith h
    rw [List.length_cons, run_succ_of_step_next _ hstep, ih (takeEvent_pending rest _), traceWith_takeEvent,
      takeEvent_takeEvent, traceWith]

/-- Settles O50, by induction on the pending events: each step applies the head's rule, which reads no later event. -/
theorem stepsComposeToTheTrace : Obligations.StepsComposeToTheTrace :=
  fun _ => run_pending_eq_traceWith _ rfl

/-! ### The output stream -/

theorem outputStream_length (c : Cfg) (es : List Event) (s : State) :
    (outputStream c es s).length = es.count .tick := by
  induction es generalizing s with
  | nil => rfl
  | cons e rest ih => cases e <;> simp [outputStream, ih]

/-- The sample of a `TICK` stands in the stream behind those of the `TICK`s before it. -/
theorem outputStream_getElem?_tick (c : Cfg) (before after : List Event) (s : State) :
    (outputStream c (before ++ .tick :: after) s)[before.count .tick]? =
      some (traceWith c (before ++ [.tick]) s).out := by
  rw [outputStream_append, ← outputStream_length c before s, List.getElem?_append_right le_rfl, Nat.sub_self,
    traceWith_append]
  rfl

/-- A trace from `RESET` reads nothing of the engine it starts in (spec/70_reset_and_hazards.md R170). -/
theorem trace_of_reset_congr (c : Cfg) (tr : List Event) {s t : State} (h : s.pending = t.pending) :
    traceWith c (.reset :: tr) s = traceWith c (.reset :: tr) t ∧
    outputStream c (.reset :: tr) s = outputStream c (.reset :: tr) t := by
  have hreset : eventWith c .reset s = eventWith c .reset t := resetEngine_congr c h
  simp only [traceWith, outputStream, hreset, and_self]

/-- Settles O51: the stream splits at each `TICK`, and `RESET` forgets the state. -/
theorem outputStreamIsWhatEachTickWrites : Obligations.OutputStreamIsWhatEachTickWrites := by
  intro c tr s t
  refine ⟨outputStream_length c tr s, ?_, trace_of_reset_congr c tr⟩
  rintro before after rfl
  exact outputStream_getElem?_tick c before after s

/-! ### What one step runs -/

theorem runCommand_of_decode_command {w : CmdWord} {i : Instr} (h : decode w = .command i) (s : State) :
    runCommand w s = exec i s := by
  simp only [runCommand, h]

theorem raiseIllegalCommand_eq (s : State) : raiseIllegalCommand s = { s with fault := true } := by
  simp [raiseIllegalCommand, faultAfter]

theorem runCommand_of_decode_reserved {w : CmdWord} {why : Reserved} (h : decode w = .reserved why) (s : State) :
    runCommand w s = .next { s with fault := true } := by
  simp only [runCommand, h, raiseIllegalCommand_eq]

/-- A pending word that decodes to a command runs it, in the state with that word taken. -/
theorem step_of_decode_command {s : State} {w : CmdWord} {rest : List Event} {i : Instr}
    (hp : s.pending = .cmd w :: rest) (hd : decode w = .command i) : step s = exec i (takeEvent rest s) :=
  (step_of_pending_cons hp).trans (runCommand_of_decode_command hd _)

/-- Taking the word `withFetchWord` has placed gives the state back, so the next step runs the word in it. -/
theorem step_withFetchWord {nbits w : Nat} {i : Instr} (h : decode (tableWord nbits w) = .command i) (s : State) :
    step (s.withFetchWord nbits w) = exec i s :=
  step_of_decode_command (withFetchWord_pending s nbits w) h

/-- Settles O16, a clause for each thing that can come next. -/
theorem stepRunsTheNextEvent : Obligations.StepRunsTheNextEvent := by
  refine ⟨?command, ?reserved, ?tick, ?reset, ?idle, ?fetched⟩
  case command => exact fun _ _ _ _ hp hd => step_of_decode_command hp hd
  case reserved => exact fun _ _ _ _ hp hd => (step_of_pending_cons hp).trans (runCommand_of_decode_reserved hd _)
  case tick => exact fun _ _ hp => step_of_pending_cons hp
  case reset => exact fun _ _ hp => step_of_pending_cons hp
  case idle => exact fun _ hp => step_of_pending_nil hp
  case fetched => exact fun s _ _ _ hd => step_withFetchWord hd s

end Sys2Proof.Proofs
end

section
/-! What one step can do to the whole state and to the registers of one voice, said once for the statements about
spec/10_state.md. -/

namespace Sys2Proof.Proofs

open Sys2Proof Sys2Proof.Machine Sys2Proof.Laws

/-! ### A word the decoder calls reserved matches no row of the opcode map (spec/30_encoding.md R62) -/

/-- A word is reserved exactly when the list of matching rows is empty. -/
theorem isReserved_iff_no_matching_rows (w : CmdWord) :
    isReserved w = true ↔ (opcodeRows.filter fun r => r.fits w).map OpcodeRow.mnemonic = [] := by
  simp [isReserved, List.filter_eq_nil_iff]

theorem selector_of_decodeTrigger_reserved {sel : BitVec 4} {amp : Word} {why : Reserved}
    (h : decodeTrigger sel amp = .reserved why) :
    sel ≠ 0 ∧ sel ≠ 1 ∧ sel ≠ 2 ∧ sel ≠ 3 ∧ sel ≠ 4 ∧ sel ≠ 5 ∧ sel ≠ 10 := by
  refine ⟨?_, ?_, ?_, ?_, ?_, ?_, ?_⟩ <;> (rintro rfl; cases h)

theorem toNat_lt_four_of_and_eq_zero {d : Word} (h : d &&& 0xFFFC = 0) : d.toNat < 4 := by
  have hhigh : d.toNat &&& 0xFFFC = 0 := by simpa using congrArg BitVec.toNat h
  have hall : d.toNat &&& (2 ^ 16 - 1) = d.toNat := by
    rw [Nat.and_two_pow_sub_one_eq_mod, Nat.mod_eq_of_lt d.isLt]
  calc d.toNat = d.toNat &&& (0xFFFC ||| 3) := hall.symm
    _ = d.toNat &&& 3 := by rw [Nat.and_or_distrib_left, hhigh, Nat.zero_or]
    _ < 4 := Nat.lt_succ_of_le Nat.and_le_right

theorem selector_of_decodeParameter_reserved {sel : BitVec 4} {data : Word} {why : Reserved}
    (h : decodeParameter sel data = .reserved why) : sel ≠ 0 ∧ ¬ (sel = 1 ∧ data &&& 0xFFFC = 0) := by
  constructor
  · rintro rfl
    cases h
  · rintro ⟨rfl, hd⟩
    simp [decodeParameter, toNat_lt_four_of_and_eq_zero hd] at h

theorem isReserved_of_decode_reserved {w : CmdWord} {why : Reserved} (h : decode w = .reserved why) :
    isReserved w = true := by
  rw [isReserved_iff_no_matching_rows, ← assemble_fields w, OneRow.matching_rows]
  unfold decode at h
  split at h
  next => cases h
  next hw =>
    split at h
    next ho => simpa [ho] using selector_of_decodeTrigger_reserved h
    next ho1 =>
      split at h
      next ho => simpa [ho] using selector_of_decodeParameter_reserved h
      next ho2 =>
        have hz : ¬ (opField w = 0 ∧ selField w = 0 ∧ dataField w = 0) := by
          rintro ⟨ho, hs, hd⟩
          apply hw
          rw [← assemble_fields w, ho, hs, hd]
          rfl
        simp only [hz, ho1, ho2, false_and, if_false, List.append_nil]

/-! ### The next state, by what comes next -/

/-- The states a step can lead to: one for each of the five things that can come next. -/
inductive Served (s : State) : State → Prop where
  | idle : Served s (idle s)
  | reset (hr : nextIsReset s) : Served s (takeEvent s.pending.tail (resetEngine cfgRef s))
  | tick (ht : nextIsTick s) : Served s (takeEvent s.pending.tail (tick cfgRef s))
  | command {i : Instr} (hc : nextIsCommand s i) : Served s (takeEvent s.pending.tail (performWith cfgRef i s))
  | reserved (hr : nextIsReserved s) : Served s (takeEvent s.pending.tail (raiseIllegalCommand s))

theorem commandWith_of_decode_command {w : CmdWord} {i : Instr} (h : decode w = .command i) (c : Cfg) (s : State) :
    commandWith c w s = performWith c i s := by
  simp only [commandWith, h]

theorem commandWith_of_decode_reserved {w : CmdWord} {why : Reserved} (h : decode w = .reserved why) (c : Cfg)
    (s : State) : commandWith c w s = raiseIllegalCommand s := by
  simp only [commandWith, h]

theorem eventWith_served {s : State} {e : Event} {rest : List Event} (h : s.pending = e :: rest) :
    Served s (takeEvent s.pending.tail (eventWith cfgRef e s)) := by
  cases e with
  | reset => exact .reset ⟨rest, h⟩
  | tick => exact .tick ⟨rest, h⟩
  | cmd w =>
    simp only [eventWith]
    cases hd : decode w with
    | command i =>
      rw [commandWith_of_decode_command hd]
      exact .command ⟨w, rest, h, hd⟩
    | reserved why =>
      rw [commandWith_of_decode_reserved hd]
      exact .reserved ⟨w, rest, h, isReserved_of_decode_reserved hd⟩

theorem step_served {s t : State} (h : step s = .next t) : Served s t := by
  cases hp : s.pending with
  | nil =>
    rw [step_of_pending_nil hp] at h
    cases h
    exact .idle
  | cons e rest =>
    have htail : rest = s.pending.tail := by rw [hp, List.tail_cons]
    rw [step_eq_eventWith hp, htail] at h
    cases h
    exact eventWith_served hp

end Sys2Proof.Proofs
end

section
/-! The registers of one voice (spec/10_state.md R19 to R25, R28): who writes them, how the flag moves and which way the
volumes go. -/

namespace Sys2Proof.Proofs

open Sys2Proof Sys2Proof.Machine Sys2Proof.Laws

/-! ### The registers of a voice, by the voice's name -/

/-- The record of a voice's registers. -/
abbrev VoiceRegs : Voice → Type
  | .kick => Kick
  | .snare => Snare
  | .hihat => Hihat
  | .clap => Clap
  | .tom => Tom
  | .cowbell => Cowbell

/-- A voice's registers in a state. -/
def regs (s : State) : (v : Voice) → VoiceRegs v
  | .kick => s.kick
  | .snare => s.snare
  | .hihat => s.hihat
  | .clap => s.clap
  | .tom => s.tom
  | .cowbell => s.cowbell

/-- The flag `*_ACT` among a voice's registers. -/
def flag : (v : Voice) → VoiceRegs v → Bool
  | .kick, r => r.act
  | .snare, r => r.act
  | .hihat, r => r.act
  | .clap, r => r.act
  | .tom, r => r.act
  | .cowbell, r => r.act

theorem active_eq_flag (s : State) (v : Voice) : s.active v = flag v (regs s v) := by cases v <;> rfl

theorem active_congr {s t : State} {v : Voice} (h : regs t v = regs s v) : t.active v = s.active v := by
  rw [active_eq_flag, active_eq_flag, h]

theorem regs_idle (s : State) (v : Voice) : regs (idle s) v = regs s v := by cases v <;> rfl

theorem regs_takeEvent (es : List Event) (s : State) (v : Voice) : regs (takeEvent es s) v = regs s v := by
  cases v <;> rfl

theorem regs_raiseIllegalCommand (s : State) (v : Voice) : regs (raiseIllegalCommand s) v = regs s v := by
  cases v <;> rfl

theorem regs_resetEngine (c : Cfg) (s : State) (v : Voice) :
    regs (resetEngine c s) v = regs (State.resetWith c) v := by
  cases v <;> rfl

/-- A command writes no registers but those of the voice it triggers (spec/48_commands.md R133). -/
theorem regs_performWith_of_ne (c : Cfg) {i : Instr} (s : State) {v : Voice} (h : i.voice ≠ some v) :
    regs (performWith c i s) v = regs s v := by
  cases i with
  | nop => rfl
  | setTone => cases v <;> rfl
  | setDecay => cases v <;> rfl
  | trigKick =>
    cases v with
    | kick => exact absurd rfl h
    | _ => rfl
  | trigSnare =>
    cases v with
    | snare => exact absurd rfl h
    | _ => rfl
  | trigHhc =>
    cases v with
    | hihat => exact absurd rfl h
    | _ => rfl
  | trigHho =>
    cases v with
    | hihat => exact absurd rfl h
    | _ => rfl
  | trigClap =>
    cases v with
    | clap => exact absurd rfl h
    | _ => rfl
  | trigTom =>
    cases v with
    | tom => exact absurd rfl h
    | _ => rfl
  | trigCowbell =>
    cases v with
    | cowbell => exact absurd rfl h
    | _ => rfl

theorem active_performWith (c : Cfg) {i : Instr} (s : State) {v : Voice} (h : i.voice = some v) :
    (performWith c i s).active v = true := by
  cases i <;> cases h <;> rfl

/-- A tick leaves an inactive voice alone (spec/41_mixer_tick.md R94). -/
theorem regs_tick_of_inactive (c : Cfg) {s : State} {v : Voice} (h : s.active v = false) :
    regs (tick c s) v = regs s v := by
  have hn := ne_true_of_eq_false h
  cases v with
  | kick => exact (tick_kick c s).trans (if_neg hn)
  | snare => exact (tick_snare c s).trans (if_neg hn)
  | hihat => exact (tick_hihat c s).trans (if_neg hn)
  | clap => exact (tick_clap c s).trans (if_neg hn)
  | tom => exact (tick_tom c s).trans (if_neg hn)
  | cowbell => exact (tick_cowbell c s).trans (if_neg hn)

/-- The registers an active voice's sub-steps leave in a tick. -/
def ticked (c : Cfg) (s : State) : (v : Voice) → VoiceRegs v
  | .kick => (kickTick c s.tone (decayMask s.decayIdx) s.kick).1
  | .snare => (snareTick c s.tone (decayMask s.decayIdx) (lfsrNext c s.lfsr) s.snare).1
  | .hihat => (hihatTick c (decayMask s.decayIdx) (lfsrNext c (lfsrAfterSnare c s)) s.hihat).1
  | .clap => (clapTick c (decayMask s.decayIdx) (lfsrBit (lfsrAfterHihat c s)) s.clap).1
  | .tom => (tomTick c s.tone (decayMask s.decayIdx) s.tom).1
  | .cowbell => (cowbellTick c s.tone (decayMask s.decayIdx) s.cowbell).1

theorem regs_tick_of_active (c : Cfg) {s : State} {v : Voice} (h : s.active v = true) :
    regs (tick c s) v = ticked c s v := by
  cases v with
  | kick => exact (tick_kick c s).trans (if_pos h)
  | snare => exact (tick_snare c s).trans (if_pos h)
  | hihat => exact (tick_hihat c s).trans (if_pos h)
  | clap => exact (tick_clap c s).trans (if_pos h)
  | tom => exact (tick_tom c s).trans (if_pos h)
  | cowbell => exact (tick_cowbell c s).trans (if_pos h)

/-- What a step can do to the registers of one voice (spec/10_state.md R28). -/
inductive VoiceStep (s t : State) (v : Voice) : Prop where
  | kept (h : regs t v = regs s v)
  | reset (hr : nextIsReset s) (h : regs t v = regs State.reset v)
  | triggered (i : Instr) (hc : nextIsCommand s i) (hv : i.voice = some v)
      (h : regs t v = regs (performWith cfgRef i s) v)
  | ticked (ht : nextIsTick s) (ha : s.active v = true) (h : regs t v = ticked cfgRef s v)

theorem Served.voiceStep {s t : State} (h : Served s t) (v : Voice) : VoiceStep s t v := by
  cases h with
  | idle => exact .kept (regs_idle s v)
  | reset hr => exact .reset hr ((regs_takeEvent _ _ v).trans (regs_resetEngine cfgRef s v))
  | tick ht =>
    cases ha : s.active v with
    | false => exact .kept ((regs_takeEvent _ _ v).trans (regs_tick_of_inactive cfgRef ha))
    | true => exact .ticked ht ha ((regs_takeEvent _ _ v).trans (regs_tick_of_active cfgRef ha))
  | @command i hc =>
    by_cases hv : i.voice = some v
    · exact .triggered i hc hv (regs_takeEvent _ _ v)
    · exact .kept ((regs_takeEvent _ _ v).trans (regs_performWith_of_ne cfgRef s hv))
  | reserved => exact .kept ((regs_takeEvent _ _ v).trans (regs_raiseIllegalCommand s v))

theorem step_voiceStep {s t : State} (h : step s = .next t) (v : Voice) : VoiceStep s t v :=
  (step_served h).voiceStep v

theorem VoiceStep.writer_of_ne {s t : State} {v : Voice} (h : VoiceStep s t v) (hne : regs t v ≠ regs s v) :
    nextIsReset s ∨ nextTriggers s v ∨ (nextIsTick s ∧ s.active v = true) := by
  cases h with
  | kept h => exact absurd h hne
  | reset hr => exact .inl hr
  | triggered i hc hv => exact .inr (.inl ⟨i, hc, hv⟩)
  | ticked ht ha => exact .inr (.inr ⟨ht, ha⟩)

/-- Settles O21: of the four things a step can do to a voice's registers, three have a writer and one keeps them. -/
theorem voicesAreWrittenByTheirOwnersOnly : Obligations.VoicesAreWrittenByTheirOwnersOnly := by
  intro s t hst
  exact ⟨(step_voiceStep hst .kick).writer_of_ne, (step_voiceStep hst .snare).writer_of_ne,
    (step_voiceStep hst .hihat).writer_of_ne, (step_voiceStep hst .clap).writer_of_ne,
    (step_voiceStep hst .tom).writer_of_ne, (step_voiceStep hst .cowbell).writer_of_ne⟩

/-! ### Flags and volumes -/

/-- The voice's volume register is 0, or both of the Snare's are (spec/10_state.md R27). -/
def Silent : (v : Voice) → VoiceRegs v → Prop
  | .kick, r => r.vol = 0
  | .snare, r => r.nvol = 0 ∧ r.tvol = 0
  | .hihat, r => r.vol = 0
  | .clap, r => r.vol = 0
  | .tom, r => r.vol = 0
  | .cowbell, r => r.vol = 0

/-- Each volume register of a voice is at most what it was. -/
def Quieter : (v : Voice) → VoiceRegs v → VoiceRegs v → Prop
  | .kick, r, r' => r.vol.toNat ≤ r'.vol.toNat
  | .snare, r, r' => r.nvol.toNat ≤ r'.nvol.toNat ∧ r.tvol.toNat ≤ r'.tvol.toNat
  | .hihat, r, r' => r.vol.toNat ≤ r'.vol.toNat
  | .clap, r, r' => r.vol.toNat ≤ r'.vol.toNat
  | .tom, r, r' => r.vol.toNat ≤ r'.vol.toNat
  | .cowbell, r, r' => r.vol.toNat ≤ r'.vol.toNat

theorem quieter_refl (v : Voice) (r : VoiceRegs v) : Quieter v r r := by
  cases v with
  | snare => exact ⟨le_rfl, le_rfl⟩
  | _ => exact le_rfl

theorem quieter_reset (v : Voice) (r : VoiceRegs v) : Quieter v (regs State.reset v) r := by
  cases v with
  | snare => exact ⟨Nat.zero_le _, Nat.zero_le _⟩
  | _ => exact Nat.zero_le _

theorem silent_reset (v : Voice) : Silent v (regs State.reset v) := by
  cases v with
  | snare => exact ⟨rfl, rfl⟩
  | _ => rfl

theorem active_reset (v : Voice) : State.reset.active v = false := by cases v <;> rfl

/-- A gate evaluation clears a raised flag only where nothing is left to decay. -/
theorem silent_of_actAfterGate {act fires silent : Bool} (ha : act = true)
    (h : actAfterGate act fires silent = false) : silent = true := by
  obtain h | ⟨-, hs⟩ := actAfterGate_eq_false h
  · rw [ha] at h
    cases h
  · exact hs

theorem eq_zero_of_actAfterGate {act fires : Bool} {vol : Word} (ha : act = true)
    (h : actAfterGate act fires (decide (vol = 0)) = false) : vol = 0 :=
  of_decide_eq_true (silent_of_actAfterGate ha h)

/-- The Clap while it bursts: flag and volume stay (spec/45_clap.md R117). -/
theorem clapBurst_act (c : Cfg) (bit : Bool) (v : Clap) : (clapBurst c bit v).1.act = v.act := by
  unfold clapBurst
  split
  · rfl
  · split <;> rfl

theorem clapBurst_vol (c : Cfg) (bit : Bool) (v : Clap) : (clapBurst c bit v).1.vol = v.vol := by
  unfold clapBurst
  split
  · rfl
  · split <;> rfl

theorem clapTick_of_stut_ne {v : Clap} (h : v.stut ≠ 0) (c : Cfg) (mask : Byte) (bit : Bool) :
    clapTick c mask bit v = clapBurst c bit v := if_pos h

theorem clapTick_of_stut_eq {v : Clap} (h : v.stut = 0) (c : Cfg) (mask : Byte) (bit : Bool) :
    clapTick c mask bit v = clapSustain c mask bit v := if_neg (not_not_intro h)

theorem clapTick_vol_le (c : Cfg) (mask : Byte) (bit : Bool) (v : Clap) :
    (clapTick c mask bit v).1.vol.toNat ≤ v.vol.toNat := by
  by_cases h : v.stut = 0
  · rw [clapTick_of_stut_eq h]
    exact decayIf_toNat_le _ _ _
  · rw [clapTick_of_stut_ne h, clapBurst_vol]

/-- A tick raises no volume (spec/10_state.md R29 (a)). -/
theorem quieter_ticked (c : Cfg) (s : State) (v : Voice) : Quieter v (ticked c s v) (regs s v) := by
  cases v with
  | snare => exact ⟨decayIf_toNat_le _ _ _, decayIf_toNat_le _ _ _⟩
  | clap => exact clapTick_vol_le c _ _ s.clap
  | _ => exact decayIf_toNat_le _ _ _

theorem clapTick_silent {c : Cfg} {mask : Byte} {bit : Bool} {v : Clap} (ha : v.act = true)
    (hf : (clapTick c mask bit v).1.act = false) : (clapTick c mask bit v).1.vol = 0 := by
  by_cases h : v.stut = 0
  · rw [clapTick_of_stut_eq h] at hf ⊢
    exact eq_zero_of_actAfterGate ha hf
  · rw [clapTick_of_stut_ne h, clapBurst_act, ha] at hf
    cases hf

/-- A tick that clears a voice's flag leaves the voice silent (spec/10_state.md R27). -/
theorem silent_ticked {c : Cfg} {s : State} {v : Voice} (ha : s.active v = true)
    (hf : flag v (ticked c s v) = false) : Silent v (ticked c s v) := by
  cases v with
  | snare =>
    obtain ⟨hn, ht⟩ := Bool.and_eq_true_iff.mp (silent_of_actAfterGate ha hf)
    exact ⟨of_decide_eq_true hn, of_decide_eq_true ht⟩
  | clap => exact clapTick_silent ha hf
  | _ => exact eq_zero_of_actAfterGate ha hf

theorem VoiceStep.quieter {s t : State} {v : Voice} (h : VoiceStep s t v) (hn : ¬ nextTriggers s v) :
    Quieter v (regs t v) (regs s v) := by
  cases h with
  | kept h => exact h ▸ quieter_refl v _
  | reset _ h => exact h ▸ quieter_reset v _
  | triggered i hc hv => exact absurd ⟨i, hc, hv⟩ hn
  | ticked _ _ h => exact h ▸ quieter_ticked cfgRef s v

/-- Settles O23: without its trigger a voice is kept, reset to volume 0, or ticked, and a gate evaluation only lowers. -/
theorem volumesNeverRiseBetweenTriggers : Obligations.VolumesNeverRiseBetweenTriggers := by
  intro s t hst
  exact ⟨(step_voiceStep hst .kick).quieter, (step_voiceStep hst .snare).quieter,
    (step_voiceStep hst .hihat).quieter, (step_voiceStep hst .clap).quieter,
    (step_voiceStep hst .tom).quieter, (step_voiceStep hst .cowbell).quieter⟩

theorem VoiceStep.trigger_of_rise {s t : State} {v : Voice} (h : VoiceStep s t v) (hs : s.active v = false)
    (ht : t.active v = true) : nextTriggers s v := by
  cases h with
  | kept h => rw [active_congr h, hs] at ht; cases ht
  | reset _ h => rw [active_congr h, active_reset] at ht; cases ht
  | triggered i hc hv => exact ⟨i, hc, hv⟩
  | ticked _ ha => rw [ha] at hs; cases hs

/-- A flag falls by `RESET` or `TICK` alone, and then the voice is silent. -/
theorem VoiceStep.silent_of_fall {s t : State} {v : Voice} (h : VoiceStep s t v) (hs : s.active v = true)
    (ht : t.active v = false) : (nextIsReset s ∨ nextIsTick s) ∧ Silent v (regs t v) := by
  cases h with
  | kept h => rw [active_congr h, hs] at ht; cases ht
  | reset hr h => exact ⟨.inl hr, h ▸ silent_reset v⟩
  | triggered i _ hv h => rw [active_congr h, active_performWith cfgRef s hv] at ht; cases ht
  | ticked hn ha h =>
    rw [active_eq_flag, h] at ht
    exact ⟨.inr hn, h ▸ silent_ticked ha ht⟩

/-- Settles O22: only a trigger raises a flag, and a gate evaluation clears one only where the volume is 0. -/
theorem activeFlagsRiseByTriggerAndFallAtSilence : Obligations.ActiveFlagsRiseByTriggerAndFallAtSilence := by
  intro s t hst
  have silent (v : Voice) (hs : s.active v = true) (ht : t.active v = false) : Silent v (regs t v) :=
    ((step_voiceStep hst v).silent_of_fall hs ht).2
  exact ⟨fun v => (step_voiceStep hst v).trigger_of_rise,
    fun v hs ht => ((step_voiceStep hst v).silent_of_fall hs ht).1,
    silent .kick, silent .snare, silent .hihat, silent .clap, silent .tom, silent .cowbell⟩

end Sys2Proof.Proofs
end

section
/-! The invariant `Inv` of Safety.lean, voice by voice (spec/10_state.md R29). -/

namespace Sys2Proof.Proofs

open Sys2Proof Sys2Proof.Machine Sys2Proof.Laws

/-! ### The noise register never falls to 0 (spec/40_noise_lfsr.md R82) -/

theorem ushiftRight_one_toNat (l : Word) : (l >>> 1).toNat = l.toNat / 2 := by
  rw [BitVec.toNat_ushiftRight, Nat.shiftRight_eq_div_pow, pow_one]

/-- If the bit shifted out is 1, the taps set bit 15, which the shift has left 0; if it is 0, a nonzero register has a
higher bit. -/
theorem lfsrNext_ne_zero {l : Word} (h : l ≠ 0) : lfsrNext cfgRef l ≠ 0 := by
  intro hz
  have hl := l.isLt
  unfold lfsrNext lfsrBit at hz
  split at hz
  next =>
    have hshift : (l >>> 1).toNat = 0xB400 := congrArg BitVec.toNat (BitVec.xor_eq_zero_iff.mp hz)
    rw [ushiftRight_one_toNat] at hshift
    omega
  next hbit =>
    have hshift : (l >>> 1).toNat = 0 := congrArg BitVec.toNat hz
    rw [ushiftRight_one_toNat] at hshift
    have hlow : l.toNat % 2 ≠ 1 := by simpa [BitVec.getLsbD, Nat.testBit_zero] using hbit
    exact h (BitVec.eq_of_toNat_eq (show l.toNat = 0 by omega))

/-- One noise voice's share of a tick. -/
theorem lfsr_ne_zero_of_noise_voice (act : Bool) {l : Word} (h : l ≠ 0) :
    (if act then lfsrNext cfgRef l else l) ≠ 0 := by
  cases act with
  | false => exact h
  | true => exact lfsrNext_ne_zero h

theorem lfsrAfterClap_ne_zero {s : State} (h : s.lfsr ≠ 0) : lfsrAfterClap cfgRef s ≠ 0 :=
  lfsr_ne_zero_of_noise_voice s.clap.act
    (lfsr_ne_zero_of_noise_voice s.hihat.act (lfsr_ne_zero_of_noise_voice s.snare.act h))

/-! ### One volume register and its voice's flag -/

/-- A volume register is at most `bound`, and 0 where its voice is idle. -/
structure VolumeInv (bound : Nat) (act : Bool) (vol : Word) : Prop where
  le : vol.toNat ≤ bound
  idle : act = false → vol = 0

theorem scaleVol_le (v0 amp : Word) : (scaleVol v0 amp).toNat ≤ v0.toNat := by
  rw [scaleVol_toNat]
  refine Nat.div_le_of_le_mul ?_
  rw [Nat.mul_comm 65536]
  exact Nat.mul_le_mul_left _ amp.isLt

/-- A trigger writes a volume of at most the initial one. -/
theorem VolumeInv.trigger (v0 amp : Word) : VolumeInv v0.toNat true (scaleVol v0 amp) :=
  ⟨scaleVol_le v0 amp, (nomatch ·)⟩

/-- A gate evaluation that clears the flag leaves the volume 0. -/
theorem VolumeInv.gate {bound : Nat} {act silent : Bool} {vol : Word} {sh : Fin 16} (h : VolumeInv bound act vol)
    (fires : Bool) (hsilent : silent = true → decayIf fires vol sh = 0) :
    VolumeInv bound (actAfterGate act fires silent) (decayIf fires vol sh) where
  le := (decayIf_toNat_le fires vol sh).trans h.le
  idle hact := by
    obtain hidle | ⟨-, hs⟩ := actAfterGate_eq_false hact
    · rw [h.idle hidle, decayIf_zero]
    · exact hsilent hs

/-! ### What the invariant says of each voice's registers -/

structure KickInv (r : Kick) : Prop where
  vol : VolumeInv 65535 r.act r.vol
  prev_le : r.prev.toNat ≤ 249
  prev_idle : r.act = false → r.prev = 0

structure SnareInv (r : Snare) : Prop where
  nvol : VolumeInv 49152 r.act r.nvol
  tvol : VolumeInv 40960 r.act r.tvol

structure HihatInv (r : Hihat) : Prop where
  vol : VolumeInv 32768 r.act r.vol
  speed : r.speed = 0 ∨ r.speed = 0x01 ∨ r.speed = 0x1F

structure ClapInv (r : Clap) : Prop where
  vol : VolumeInv 49152 r.act r.vol
  stut_idle : r.act = false → r.stut = 0
  timer_le : r.timer.toNat ≤ 201
  timer_sustain : r.stut = 0 → r.timer = 0

/-- The part of the invariant that speaks of one voice. -/
def VoiceInv : (v : Voice) → VoiceRegs v → Prop
  | .kick, r => KickInv r
  | .snare, r => SnareInv r
  | .hihat, r => HihatInv r
  | .clap, r => ClapInv r
  | .tom, r => VolumeInv 57344 r.act r.vol
  | .cowbell, r => VolumeInv 36864 r.act r.vol

/-- The invariant is `LFSR != 0` and a clause for each voice. -/
theorem inv_iff (s : State) : Inv s ↔ s.lfsr ≠ 0 ∧ ∀ v, VoiceInv v (regs s v) := by
  constructor
  · intro h
    refine ⟨h.noise_alive, fun v => ?_⟩
    cases v with
    | kick =>
      exact
        { vol := ⟨Nat.le_of_lt_succ s.kick.vol.isLt, fun ha => (h.kick_idle ha).1⟩
          prev_le := h.kick_prev
          prev_idle := fun ha => (h.kick_idle ha).2 }
    | snare =>
      exact
        { nvol := ⟨h.snare_vol.1, fun ha => (h.snare_idle ha).1⟩
          tvol := ⟨h.snare_vol.2, fun ha => (h.snare_idle ha).2⟩ }
    | hihat => exact { vol := ⟨h.hihat_vol, h.hihat_idle⟩, speed := h.hihat_speed }
    | clap =>
      exact
        { vol := ⟨h.clap_vol, fun ha => (h.clap_idle ha).1⟩
          stut_idle := fun ha => (h.clap_idle ha).2
          timer_le := h.clap_timer
          timer_sustain := h.clap_sustain }
    | tom => exact ⟨h.tom_vol, h.tom_idle⟩
    | cowbell => exact ⟨h.cowbell_vol, h.cowbell_idle⟩
  · rintro ⟨hl, h⟩
    have hk : KickInv s.kick := h .kick
    have hs : SnareInv s.snare := h .snare
    have hh : HihatInv s.hihat := h .hihat
    have hc : ClapInv s.clap := h .clap
    have ht : VolumeInv 57344 s.tom.act s.tom.vol := h .tom
    have hb : VolumeInv 36864 s.cowbell.act s.cowbell.vol := h .cowbell
    exact
      { noise_alive := hl
        kick_idle := fun ha => ⟨hk.vol.idle ha, hk.prev_idle ha⟩
        kick_prev := hk.prev_le
        snare_idle := fun ha => ⟨hs.nvol.idle ha, hs.tvol.idle ha⟩
        snare_vol := ⟨hs.nvol.le, hs.tvol.le⟩
        hihat_idle := hh.vol.idle
        hihat_vol := hh.vol.le
        hihat_speed := hh.speed
        clap_idle := fun ha => ⟨hc.vol.idle ha, hc.stut_idle ha⟩
        clap_vol := hc.vol.le
        clap_timer := hc.timer_le
        clap_sustain := hc.timer_sustain
        tom_idle := ht.idle
        tom_vol := ht.le
        cowbell_idle := hb.idle
        cowbell_vol := hb.le }

/-! ### Triggers keep it -/

theorem voiceInv_performWith {i : Instr} {s : State} {v : Voice} (hv : i.voice = some v)
    (h : VoiceInv v (regs s v)) : VoiceInv v (regs (performWith cfgRef i s) v) := by
  cases i with
  | nop => cases hv
  | setTone => cases hv
  | setDecay => cases hv
  | trigKick amp =>
    cases hv
    have hk : KickInv s.kick := h
    exact ⟨VolumeInv.trigger cfgRef.kickVol0 amp, hk.prev_le, (nomatch ·)⟩
  | trigSnare amp =>
    cases hv
    exact ⟨VolumeInv.trigger cfgRef.snNvol0 amp, VolumeInv.trigger cfgRef.snTvol0 amp⟩
  | trigHhc amp =>
    cases hv
    exact ⟨VolumeInv.trigger cfgRef.hhVol0 amp, .inr (.inl rfl)⟩
  | trigHho amp =>
    cases hv
    exact ⟨VolumeInv.trigger cfgRef.hhVol0 amp, .inr (.inr rfl)⟩
  | trigClap amp =>
    cases hv
    exact ⟨VolumeInv.trigger cfgRef.clVol0 amp, (nomatch ·), Nat.zero_le _, fun _ => rfl⟩
  | trigTom amp =>
    cases hv
    exact VolumeInv.trigger cfgRef.tmVol0 amp
  | trigCowbell amp =>
    cases hv
    exact VolumeInv.trigger cfgRef.cbVol0 amp

/-! ### Ticks keep it -/

/-- The reference table stays at or below 250 (spec/20_memory.md R43). -/
theorem waveRead_le (i : BitVec 7) : (waveRead cfgRef i).toNat ≤ 250 := by
  revert i
  decide

/-- A sample of the reference table is at most 249 after scaling (spec/41_mixer_tick.md R96). -/
theorem scaled_wave_le (ph vol : Word) : scale8 (waveAt cfgRef ph).toNat vol ≤ 249 :=
  (scale8_le vol (waveRead_le _)).trans (by decide)

theorem scale8_zero (x : Nat) : scale8 x 0 = 0 := by simp [scale8_eq]

/-- The low-pass memory after a tick is the sample at the new phase and the new volume (spec/42_kick.md R102). -/
theorem kickTick_prev (tone : Word) (mask : Byte) (r : Kick) :
    (kickTick cfgRef tone mask r).1.prev =
      u8 (scale8 (waveAt cfgRef (kickTick cfgRef tone mask r).1.phase).toNat
        (kickTick cfgRef tone mask r).1.vol) := rfl

theorem kickInv_kickTick {r : Kick} (h : KickInv r) (tone : Word) (mask : Byte) :
    KickInv (kickTick cfgRef tone mask r).1 := by
  have hvol : VolumeInv 65535 (kickTick cfgRef tone mask r).1.act (kickTick cfgRef tone mask r).1.vol :=
    h.vol.gate _ of_decide_eq_true
  refine ⟨hvol, (Nat.mod_le _ _).trans (scaled_wave_le _ _), fun ha => ?_⟩
  rw [kickTick_prev, hvol.idle ha, scale8_zero]
  rfl

theorem snareInv_snareTick {r : Snare} (h : SnareInv r) (tone : Word) (mask : Byte) (l : Word) :
    SnareInv (snareTick cfgRef tone mask l r).1 where
  nvol := h.nvol.gate _ fun hs => of_decide_eq_true (Bool.and_eq_true_iff.mp hs).1
  tvol := h.tvol.gate _ fun hs => of_decide_eq_true (Bool.and_eq_true_iff.mp hs).2

theorem hihatInv_hihatTick {r : Hihat} (h : HihatInv r) (mask : Byte) (l : Word) :
    HihatInv (hihatTick cfgRef mask l r).1 where
  vol := h.vol.gate _ of_decide_eq_true
  speed := h.speed

/-- One more tick of a stutter period. -/
theorem clapInv_count {r : Clap} (h : ClapInv r) (hs : r.stut ≠ 0) (ht : r.timer.toNat ≤ 200) :
    ClapInv { r with timer := u8 (r.timer.toNat + 1) } where
  vol := h.vol
  stut_idle := h.stut_idle
  timer_le := (Nat.mod_le _ _).trans (Nat.succ_le_succ ht)
  timer_sustain h0 := absurd h0 hs

/-- The end of a stutter period, in an active Clap. -/
theorem clapInv_period_end {r : Clap} (h : ClapInv r) (ha : r.act = true) :
    ClapInv { r with stut := r.stut - 1, timer := 0 } where
  vol := h.vol
  stut_idle hi := by
    rw [show r.act = false from hi] at ha
    cases ha
  timer_le := Nat.zero_le _
  timer_sustain _ := rfl

theorem clapInv_clapBurst {r : Clap} (h : ClapInv r) (ha : r.act = true) (hs : r.stut ≠ 0) (bit : Bool) :
    ClapInv (clapBurst cfgRef bit r).1 := by
  unfold clapBurst
  split
  next hon => exact clapInv_count h hs (hon.le.trans (by decide))
  next =>
    split
    next => exact clapInv_period_end h ha
    next hgap => exact clapInv_count h hs (Nat.le_of_not_lt hgap)

theorem clapInv_clapSustain {r : Clap} (h : ClapInv r) (hs : r.stut = 0) (mask : Byte) (bit : Bool) :
    ClapInv (clapSustain cfgRef mask bit r).1 where
  vol := h.vol.gate _ of_decide_eq_true
  stut_idle _ := hs
  timer_le := h.timer_le
  timer_sustain := h.timer_sustain

theorem clapInv_clapTick {r : Clap} (h : ClapInv r) (ha : r.act = true) (mask : Byte) (bit : Bool) :
    ClapInv (clapTick cfgRef mask bit r).1 := by
  by_cases hs : r.stut = 0
  · rw [clapTick_of_stut_eq hs]
    exact clapInv_clapSustain h hs mask bit
  · rw [clapTick_of_stut_ne hs]
    exact clapInv_clapBurst h ha hs bit

theorem voiceInv_ticked {s : State} {v : Voice} (ha : s.active v = true) (h : VoiceInv v (regs s v)) :
    VoiceInv v (ticked cfgRef s v) := by
  cases v with
  | kick => exact kickInv_kickTick h _ _
  | snare => exact snareInv_snareTick h _ _ _
  | hihat => exact hihatInv_hihatTick h _ _
  | clap => exact clapInv_clapTick h ha _ _
  | tom => exact VolumeInv.gate h _ of_decide_eq_true
  | cowbell => exact VolumeInv.gate h _ of_decide_eq_true

/-! ### Every step keeps it -/

/-- Settles O24: each clause of the invariant speaks of constants at reset. -/
theorem resetStateMeetsTheInvariant : Obligations.ResetStateMeetsTheInvariant := by
  constructor <;> decide

theorem VoiceStep.voiceInv {s t : State} {v : Voice} (hst : VoiceStep s t v) (h : VoiceInv v (regs s v)) :
    VoiceInv v (regs t v) := by
  cases hst with
  | kept heq => exact heq ▸ h
  | reset _ heq => exact heq ▸ ((inv_iff _).mp resetStateMeetsTheInvariant).2 v
  | triggered i _ hv heq => exact heq ▸ voiceInv_performWith hv h
  | ticked _ ha heq => exact heq ▸ voiceInv_ticked ha h

/-- No command writes `LFSR` (spec/10_state.md R14). -/
theorem performWith_lfsr (c : Cfg) (i : Instr) (s : State) : (performWith c i s).lfsr = s.lfsr := by cases i <;> rfl

theorem Served.lfsr_ne_zero {s t : State} (hst : Served s t) (h : s.lfsr ≠ 0) : t.lfsr ≠ 0 := by
  cases hst with
  | idle => exact h
  | reset => exact resetStateMeetsTheInvariant.noise_alive
  | tick => rw [takeEvent_lfsr, tick_lfsr]; exact lfsrAfterClap_ne_zero h
  | command => rw [takeEvent_lfsr, performWith_lfsr]; exact h
  | reserved => exact h

/-- Settles O25: the invariant is a clause on `LFSR` and one on each voice, and each is kept by every case of a step. -/
theorem everyStepKeepsTheInvariant : Obligations.EveryStepKeepsTheInvariant := by
  intro s t hs hst
  rw [inv_iff] at hs ⊢
  obtain ⟨hl, hv⟩ := hs
  exact ⟨(step_served hst).lfsr_ne_zero hl, fun v => (step_voiceStep hst v).voiceInv (hv v)⟩

end Sys2Proof.Proofs
end

section
/-! The shared registers `LFSR`, `TONE`, `DECAY_IDX`, `OUT`, `FAULT` and their writers (spec/10_state.md R14 to R18). -/

namespace Sys2Proof.Proofs

open Sys2Proof Sys2Proof.Machine Sys2Proof.Laws

/-! ### What a command writes of them -/

theorem out_performWith (c : Cfg) (i : Instr) (s : State) : (performWith c i s).out = s.out :=
  (performWith_out c i s).1

theorem fault_performWith (c : Cfg) (i : Instr) (s : State) : (performWith c i s).fault = s.fault := by
  cases i <;> rfl

/-- Only `SET.TONE` of the new value changes `TONE`. -/
theorem eq_setTone_of_tone_ne {c : Cfg} {i : Instr} {s : State} (h : (performWith c i s).tone ≠ s.tone) :
    i = .setTone (performWith c i s).tone := by
  cases i with
  | setTone tone => rfl
  | _ => exact absurd rfl h

/-- Only `SET.DECAY` of the new value changes `DECAY_IDX`. -/
theorem eq_setDecay_of_decayIdx_ne {c : Cfg} {i : Instr} {s : State}
    (h : (performWith c i s).decayIdx ≠ s.decayIdx) : i = .setDecay (performWith c i s).decayIdx := by
  cases i with
  | setDecay idx => rfl
  | _ => exact absurd rfl h

/-! ### What a tick writes of them -/

/-- A tick that changes `LFSR` has an active noise voice (spec/40_noise_lfsr.md R81). -/
theorem noise_active_of_lfsr_ne {c : Cfg} {s : State} (h : lfsrAfterClap c s ≠ s.lfsr) :
    s.snare.act = true ∨ s.hihat.act = true ∨ s.clap.act = true := by
  by_contra hn
  obtain ⟨hs, hh, hc⟩ : s.snare.act = false ∧ s.hihat.act = false ∧ s.clap.act = false := by simpa using hn
  apply h
  simp [lfsrAfterClap, lfsrAfterHihat, lfsrAfterSnare, hs, hh, hc]

/-! ### Over every step -/

section
variable {s t : State} (hst : Served s t)
include hst

theorem Served.writer_of_lfsr_ne (h : t.lfsr ≠ s.lfsr) :
    nextIsReset s ∨ (nextIsTick s ∧ (s.snare.act = true ∨ s.hihat.act = true ∨ s.clap.act = true)) := by
  cases hst with
  | reset hr => exact .inl hr
  | tick ht => exact .inr ⟨ht, noise_active_of_lfsr_ne (by simpa using h)⟩
  | command => exact absurd (performWith_lfsr _ _ s) h
  | _ => exact absurd rfl h

theorem Served.writer_of_tone_ne (h : t.tone ≠ s.tone) :
    nextIsReset s ∨ nextIsCommand s (.setTone t.tone) := by
  cases hst with
  | reset hr => exact .inl hr
  | tick => exact absurd (tick_tone cfgRef s) h
  | command hc => exact .inr (eq_setTone_of_tone_ne h ▸ hc)
  | _ => exact absurd rfl h

theorem Served.writer_of_decayIdx_ne (h : t.decayIdx ≠ s.decayIdx) :
    nextIsReset s ∨ nextIsCommand s (.setDecay t.decayIdx) := by
  cases hst with
  | reset hr => exact .inl hr
  | tick => exact absurd (tick_decayIdx cfgRef s) h
  | command hc => exact .inr (eq_setDecay_of_decayIdx_ne h ▸ hc)
  | _ => exact absurd rfl h

theorem Served.writer_of_out_ne (h : t.out ≠ s.out) : nextIsReset s ∨ nextIsTick s := by
  cases hst with
  | reset hr => exact .inl hr
  | tick ht => exact .inr ht
  | command => exact absurd (out_performWith _ _ s) h
  | _ => exact absurd rfl h

theorem Served.writer_of_fault_ne (h : t.fault ≠ s.fault) : nextIsReset s ∨ nextIsReserved s := by
  cases hst with
  | reset hr => exact .inl hr
  | reserved hr => exact .inr hr
  | tick => exact absurd (tick_fault cfgRef s) h
  | command => exact absurd (fault_performWith _ _ s) h
  | idle => exact absurd rfl h

end

/-- Settles O20, by the cases of a step for each register. -/
theorem sharedRegistersHaveOnlyTheirWriters : Obligations.SharedRegistersHaveOnlyTheirWriters := by
  intro s t hst
  have h := step_served hst
  exact ⟨h.writer_of_lfsr_ne, h.writer_of_tone_ne, h.writer_of_decayIdx_ne, h.writer_of_out_ne, h.writer_of_fault_ne⟩

end Sys2Proof.Proofs
end

section
/-! What the outcome of one tick depends on (spec/10_state.md R28, spec/40_noise_lfsr.md R84): lemmas that say two
states with the same inputs give the same result. -/

namespace Sys2Proof.Proofs

open Sys2Proof Sys2Proof.Machine Sys2Proof.Laws

/-! ### The noise reaches a voice's contribution, not its registers -/

theorem snareTick_registers (c : Cfg) (tone : Word) (mask : Byte) (l l' : Word) (r : Snare) :
    (snareTick c tone mask l r).1 = (snareTick c tone mask l' r).1 := rfl

theorem hihatTick_registers (c : Cfg) (mask : Byte) (l l' : Word) (r : Hihat) :
    (hihatTick c mask l r).1 = (hihatTick c mask l' r).1 := rfl

theorem clapBurst_registers (c : Cfg) (bit bit' : Bool) (r : Clap) :
    (clapBurst c bit r).1 = (clapBurst c bit' r).1 := by
  unfold clapBurst
  split
  · rfl
  · split <;> rfl

theorem clapTick_registers (c : Cfg) (mask : Byte) (bit bit' : Bool) (r : Clap) :
    (clapTick c mask bit r).1 = (clapTick c mask bit' r).1 := by
  by_cases h : r.stut = 0
  · rw [clapTick_of_stut_eq h, clapTick_of_stut_eq h]
    rfl
  · rw [clapTick_of_stut_ne h, clapTick_of_stut_ne h, clapBurst_registers]

section Congr
variable (c : Cfg) {s t : State}

/-! ### `LFSR` on its way through a tick depends on itself and on the flags of the noise voices -/

theorem lfsrAfterSnare_congr (hl : s.lfsr = t.lfsr) (hs : s.snare.act = t.snare.act) :
    lfsrAfterSnare c s = lfsrAfterSnare c t := by
  simp only [lfsrAfterSnare, hl, hs]

theorem lfsrAfterHihat_congr (hl : s.lfsr = t.lfsr) (hs : s.snare.act = t.snare.act)
    (hh : s.hihat.act = t.hihat.act) : lfsrAfterHihat c s = lfsrAfterHihat c t := by
  simp only [lfsrAfterHihat, lfsrAfterSnare_congr c hl hs, hh]

theorem lfsrAfterClap_congr (hl : s.lfsr = t.lfsr) (hs : s.snare.act = t.snare.act)
    (hh : s.hihat.act = t.hihat.act) (hc : s.clap.act = t.clap.act) : lfsrAfterClap c s = lfsrAfterClap c t := by
  simp only [lfsrAfterClap, lfsrAfterHihat_congr c hl hs hh, hc]

/-! ### Each voice's registers and contribution -/

theorem kick_congr (hd : s.decayIdx = t.decayIdx) (ht : s.tone = t.tone) (hk : s.kick = t.kick) :
    (tick c s).kick = (tick c t).kick ∧ (runVoices c s).c0 = (runVoices c t).c0 := by
  simp only [tick_kick, runVoices_c0, kickAfter, kickValue, hd, ht, hk, and_self]

theorem tom_congr (hd : s.decayIdx = t.decayIdx) (ht : s.tone = t.tone) (hm : s.tom = t.tom) :
    (tick c s).tom = (tick c t).tom ∧ (runVoices c s).c4 = (runVoices c t).c4 := by
  simp only [tick_tom, runVoices_c4, tomAfter, tomValue, hd, ht, hm, and_self]

theorem cowbell_congr (hd : s.decayIdx = t.decayIdx) (ht : s.tone = t.tone) (hb : s.cowbell = t.cowbell) :
    (tick c s).cowbell = (tick c t).cowbell ∧ (runVoices c s).c5 = (runVoices c t).c5 := by
  simp only [tick_cowbell, runVoices_c5, cowbellAfter, cowbellValue, hd, ht, hb, and_self]

theorem tick_snare_congr (hd : s.decayIdx = t.decayIdx) (ht : s.tone = t.tone) (hs : s.snare = t.snare) :
    (tick c s).snare = (tick c t).snare := by
  simp only [tick_snare, snareAfter, hd, ht, hs,
    snareTick_registers c t.tone _ (lfsrNext c s.lfsr) (lfsrNext c t.lfsr)]

theorem snareValue_congr (hd : s.decayIdx = t.decayIdx) (ht : s.tone = t.tone) (hs : s.snare = t.snare)
    (hl : s.lfsr = t.lfsr) : snareValue c s = snareValue c t := by
  simp only [snareValue, hd, ht, hs, hl]

theorem tick_hihat_congr (hd : s.decayIdx = t.decayIdx) (hh : s.hihat = t.hihat) :
    (tick c s).hihat = (tick c t).hihat := by
  simp only [tick_hihat, hihatAfter, hd, hh,
    hihatTick_registers c _ (lfsrNext c (lfsrAfterSnare c s)) (lfsrNext c (lfsrAfterSnare c t))]

theorem hihatValue_congr (hd : s.decayIdx = t.decayIdx) (hh : s.hihat = t.hihat) (hl : s.lfsr = t.lfsr)
    (hs : s.snare.act = t.snare.act) : hihatValue c s = hihatValue c t := by
  simp only [hihatValue, hd, hh, lfsrAfterSnare_congr c hl hs]

theorem tick_clap_congr (hd : s.decayIdx = t.decayIdx) (hc : s.clap = t.clap) :
    (tick c s).clap = (tick c t).clap := by
  simp only [tick_clap, clapAfter, hd, hc,
    clapTick_registers c _ (lfsrBit (lfsrAfterHihat c s)) (lfsrBit (lfsrAfterHihat c t))]

theorem clapValue_congr (hd : s.decayIdx = t.decayIdx) (hc : s.clap = t.clap) (hl : s.lfsr = t.lfsr)
    (hs : s.snare.act = t.snare.act) (hh : s.hihat.act = t.hihat.act) : clapValue c s = clapValue c t := by
  simp only [clapValue, hd, hc, lfsrAfterHihat_congr c hl hs hh]

/-- The noise voices, the parameters and `LFSR` make a system of their own. -/
theorem agreeOnNoiseSide_tick (h : agreeOnNoiseSide s t) :
    agreeOnNoiseSide (tick c s) (tick c t) ∧
    (runVoices c s).c1 = (runVoices c t).c1 ∧ (runVoices c s).c2 = (runVoices c t).c2 ∧
    (runVoices c s).c3 = (runVoices c t).c3 := by
  obtain ⟨hl, ht, hd, hs, hh, hc⟩ := h
  have hsa := congrArg Snare.act hs
  have hha := congrArg Hihat.act hh
  have hca := congrArg Clap.act hc
  simp only [agreeOnNoiseSide, tick_lfsr, tick_tone, tick_decayIdx, runVoices_c1, runVoices_c2, runVoices_c3]
  exact ⟨⟨lfsrAfterClap_congr c hl hsa hha hca, ht, hd, tick_snare_congr c hd ht hs, tick_hihat_congr c hd hh,
      tick_clap_congr c hd hc⟩,
    snareValue_congr c hd ht hs hl, hihatValue_congr c hd hh hl hsa, clapValue_congr c hd hc hl hsa hha⟩

end Congr

/-! ### The dependence is real -/

/-- The Hi-hat's first sample is 28 with the Snare sounding and 56 alone: it reads `LFSR` after one more step
(spec/95_test_vectors.md P2, V7). -/
theorem hihat_hears_the_snare :
    (runVoices cfgRef (trigHhc cfgRef 0xFFFF (trigSnare cfgRef 0x8000 State.reset))).c2 ≠
      (runVoices cfgRef (trigHhc cfgRef 0xFFFF State.reset)).c2 := by decide

/-- Settles O46: each voice's registers and contribution are functions of what the statement names, and the Hi-hat's
first sample tells a sounding Snare from a silent one. -/
theorem voicesMeetInTheNoiseSourceOnly : Obligations.VoicesMeetInTheNoiseSourceOnly := by
  refine ⟨?functions, fun c s t => agreeOnNoiseSide_tick c, ?real⟩
  case functions =>
    intro c s t hd
    simp only [runVoices_c1, runVoices_c2, runVoices_c3, tick_lfsr]
    exact ⟨fun ht => ⟨kick_congr c hd ht, tom_congr c hd ht, cowbell_congr c hd ht,
        fun hs => ⟨tick_snare_congr c hd ht hs, snareValue_congr c hd ht hs⟩⟩,
      fun hh => ⟨tick_hihat_congr c hd hh, hihatValue_congr c hd hh⟩,
      fun hc => ⟨tick_clap_congr c hd hc, clapValue_congr c hd hc⟩,
      lfsrAfterClap_congr c⟩
  case real =>
    exact ⟨trigHhc cfgRef 0xFFFF (trigSnare cfgRef 0x8000 State.reset), State.reset.snare, hihat_hears_the_snare⟩

end Sys2Proof.Proofs
end

section
/-! The wave table of `CFG_REF` and the index an oscillator reads it at (spec/20_memory.md R43, R45). -/

namespace Sys2Proof.Proofs

open Sys2Proof Sys2Proof.Machine Sys2Proof.Laws

/-! ### The index sees the phase modulo 32768 -/

theorem waveIndex_eq_of_mod_eq {p q : Word} (h : p.toNat % 32768 = q.toNat % 32768) :
    waveIndex p = waveIndex q := by
  apply BitVec.eq_of_toNat_eq
  rw [waveIndex_toNat, waveIndex_toNat]
  omega

theorem waveIndex_eq_extractLsb' (ph : Word) : waveIndex ph = ph.extractLsb' 8 7 := by
  apply BitVec.eq_of_toNat_eq
  rw [waveIndex_toNat, BitVec.extractLsb'_toNat, Nat.shiftRight_eq_div_pow]

/-- The flipped bit is the one of weight 32768. -/
theorem waveIndex_flip_top_bit (ph : Word) : waveIndex (ph ^^^ 0x8000) = waveIndex ph := by
  apply waveIndex_eq_of_mod_eq
  have h : (ph.toNat ^^^ 2 ^ 15) % 2 ^ 15 = ph.toNat % 2 ^ 15 := by
    rw [Nat.xor_mod_two_pow, Nat.mod_self, Nat.xor_zero]
  exact h

/-- `k` ticks of a constant increment advance the phase by `k * inc`, modulo its 16 bits. -/
theorem iterate_advancePhase_toNat (ph : Word) (inc k : Nat) :
    ((fun p => advancePhase p inc)^[k] ph).toNat = (ph.toNat + k * inc) % 65536 := by
  induction k with
  | zero => simp [Nat.mod_eq_of_lt ph.isLt]
  | succ k ih =>
    rw [Function.iterate_succ_apply', advancePhase_toNat, ih, Nat.mod_add_mod, Nat.succ_mul, Nat.add_assoc]

theorem waveIndex_iterate_advancePhase (ph : Word) {inc k : Nat} (h : k * inc % 32768 = 0) :
    waveIndex ((fun p => advancePhase p inc)^[k] ph) = waveIndex ph := by
  apply waveIndex_eq_of_mod_eq
  rw [iterate_advancePhase_toNat]
  omega

/-- Settles O36: bit 15 and whole multiples of 32768 vanish from the phase modulo 32768, which fixes the index. -/
theorem waveIndexIgnoresTheTopPhaseBit : Obligations.WaveIndexIgnoresTheTopPhaseBit := by
  intro ph inc k
  exact ⟨waveIndex_eq_extractLsb' ph, waveIndex_toNat ph, waveIndex_flip_top_bit ph,
    waveIndex_iterate_advancePhase ph⟩

/-! ### The upper half of the table mirrors the lower -/

theorem waveRead_add_half_period (i : BitVec 7) :
    (waveRead cfgRef i).toNat + (waveRead cfgRef (i + 64)).toNat = 256 := by
  revert i
  decide

theorem waveRead_eq_max_iff (i : BitVec 7) : (waveRead cfgRef i).toNat = 250 ↔ i ∈ [31, 32, 33] := by
  revert i
  decide

theorem le_waveRead (i : BitVec 7) : 6 ≤ (waveRead cfgRef i).toNat := by
  have hsum := waveRead_add_half_period i
  have hmax := waveRead_le (i + 64)
  omega

/-- The minimum is where the entry half a period on is the maximum. -/
theorem waveRead_eq_min_iff (i : BitVec 7) : (waveRead cfgRef i).toNat = 6 ↔ i ∈ [95, 96, 97] := by
  have hsum := waveRead_add_half_period i
  calc (waveRead cfgRef i).toNat = 6
      ↔ (waveRead cfgRef (i + 64)).toNat = 250 := by omega
    _ ↔ i + 64 ∈ [31, 32, 33] := waveRead_eq_max_iff (i + 64)
    _ ↔ i ∈ [95, 96, 97] := by
      simp only [List.mem_cons, List.not_mem_nil, or_false, ← BitVec.eq_sub_iff_add_eq]
      rfl

/-- The rows in pairs, as the model lists them: those above the mean 128 exceed it by what those below fall short. -/
theorem waveTable_sum : (cfgRef.wave.toList.map BitVec.toNat).sum = 16384 := by
  have hrows : cfgRef.wave.toList = waveRows01 ++ waveRows23 ++ waveRows45 ++ waveRows67 := rfl
  have h01 : (waveRows01.map BitVec.toNat).sum = 6521 := by decide
  have h23 : (waveRows23.map BitVec.toNat).sum = 6643 := by decide
  have h45 : (waveRows45.map BitVec.toNat).sum = 1671 := by decide
  have h67 : (waveRows67.map BitVec.toNat).sum = 1549 := by decide
  simp only [hrows, List.map_append, List.sum_append, h01, h23, h45, h67]

/-- Settles O35: the maximum, its places, the mirror and the sum are read off the table; the minimum and its places
follow by the mirror. -/
theorem waveTableIsOneSymmetricPeriod : Obligations.WaveTableIsOneSymmetricPeriod := by
  refine ⟨fun i => ?_, waveTable_sum⟩
  exact ⟨le_waveRead i, waveRead_le i, waveRead_eq_min_iff i, waveRead_eq_max_iff i, waveRead_add_half_period i⟩

end Sys2Proof.Proofs
end

section
/-! The encoder and the decoder against each other and against the opcode map, and the reserved words
(spec/30_encoding.md R59 to R63). -/

namespace Sys2Proof.Proofs

open Sys2Proof Sys2Proof.Machine Sys2Proof.Laws

/-! ### Decode of encode -/

theorem assemble_ne_zero_of_op_ne_zero {op : BitVec 4} (h : op ≠ 0) (sel : BitVec 4) (data : Word) :
    assemble op sel data ≠ 0 := fun hz => h ((assemble_inj op sel 0 0 data 0).mp hz).1

theorem decode_assemble_one (sel : BitVec 4) (amp : Word) : decode (assemble 1 sel amp) = decodeTrigger sel amp := by
  have hne : assemble 1 sel amp ≠ 0 := assemble_ne_zero_of_op_ne_zero (by decide) sel amp
  rw [decode, if_neg hne, opField_assemble, if_pos rfl, selField_assemble, dataField_assemble]

theorem decode_assemble_two (sel : BitVec 4) (data : Word) :
    decode (assemble 2 sel data) = decodeParameter sel data := by
  have hne : assemble 2 sel data ≠ 0 := assemble_ne_zero_of_op_ne_zero (by decide) sel data
  rw [decode, if_neg hne, opField_assemble, if_neg (by decide), if_pos rfl, selField_assemble, dataField_assemble]

theorem decode_encodeTrigger (var : BitVec 1) (v : Voice) (amp : Word) :
    decode (encodeTrigger var v amp) = decodeTrigger (var ++ v.number) amp :=
  decode_assemble_one _ amp

theorem decodeParameter_one_setWidth (idx : BitVec 2) :
    decodeParameter 1 (idx.setWidth 16) = .command (.setDecay idx) := by
  revert idx
  decide

theorem decode_encode (i : Instr) : decode (encode i) = .command i := by
  cases i with
  | nop => rfl
  | trigKick amp => exact decode_encodeTrigger 0 .kick amp
  | trigSnare amp => exact decode_encodeTrigger 0 .snare amp
  | trigHhc amp => exact decode_encodeTrigger 0 .hihat amp
  | trigClap amp => exact decode_encodeTrigger 0 .clap amp
  | trigTom amp => exact decode_encodeTrigger 0 .tom amp
  | trigCowbell amp => exact decode_encodeTrigger 0 .cowbell amp
  | trigHho amp => exact decode_encodeTrigger 1 .hihat amp
  | setTone tone => exact decode_assemble_two 0 tone
  | setDecay idx => exact (decode_assemble_two 1 (idx.setWidth 16)).trans (decodeParameter_one_setWidth idx)

/-! ### Encode of decode -/

/-- Each legal selector is the encoder's `var ++ v` of the command it selects. -/
theorem encode_of_decodeTrigger {sel : BitVec 4} {amp : Word} {i : Instr} (h : decodeTrigger sel amp = .command i) :
    encode i = assemble 1 sel amp := by
  unfold decodeTrigger at h
  split at h <;> cases h
  all_goals
    rename_i hsel
    exact congrArg (assemble 1 · amp) (BitVec.eq_of_toNat_eq hsel.symm)

/-- A number below 4 is kept by its two low bits. -/
theorem setWidth_extractLsb'_of_lt_four {d : Word} (h : d.toNat < 4) : (d.extractLsb' 0 2).setWidth 16 = d := by
  apply BitVec.eq_of_toNat_eq
  simp only [BitVec.toNat_setWidth, BitVec.extractLsb'_toNat, Nat.shiftRight_zero]
  omega

theorem encode_of_decodeParameter {sel : BitVec 4} {data : Word} {i : Instr}
    (h : decodeParameter sel data = .command i) : encode i = assemble 2 sel data := by
  unfold decodeParameter at h
  split at h
  next hsel =>
    cases h
    exact congrArg (assemble 2 · data) (BitVec.eq_of_toNat_eq hsel.symm)
  next hsel =>
    obtain rfl : sel = 1 := BitVec.eq_of_toNat_eq hsel
    split at h <;> cases h
    next hdata => exact congrArg (assemble 2 1) (setWidth_extractLsb'_of_lt_four hdata)
  next => cases h

theorem encode_of_decode {w : CmdWord} {i : Instr} (h : decode w = .command i) : encode i = w := by
  unfold decode at h
  split at h
  next hw =>
    cases h
    exact hw.symm
  next =>
    split at h
    next hop => rw [encode_of_decodeTrigger h, ← hop, assemble_fields]
    next =>
      split at h
      next hop => rw [encode_of_decodeParameter h, ← hop, assemble_fields]
      next => split at h <;> cases h

/-- Settles O11: the fields of an assembled word are the ones it was assembled from, and a word is its fields. -/
theorem decodeAndEncodeAgree : Obligations.DecodeAndEncodeAgree :=
  ⟨decode_encode, fun _ _ => encode_of_decode⟩

/-- Settles O10: each listed word is, bit for bit, the encoder's word of its command. -/
theorem listedWordsDecodeToTheirCommands : Obligations.ListedWordsDecodeToTheirCommands :=
  ⟨decode_encode .nop, decode_encode (.trigKick 0xFFFF), decode_encode (.trigSnare 0),
    decode_encode (.trigHhc 0x8000), decode_encode (.trigClap 1), decode_encode (.trigTom 0xABCD),
    decode_encode (.trigCowbell 0xFFFF), decode_encode (.trigHho 0x8000), decode_encode (.setTone 700),
    decode_encode (.setDecay 3)⟩

/-! ### The decoder and the opcode map -/

theorem encode_matches_one_row (i : Instr) : OneRow.Statement i := by
  cases i with
  | nop => exact OneRow.nop
  | trigKick amp => exact OneRow.trigKick amp
  | trigSnare amp => exact OneRow.trigSnare amp
  | trigHhc amp => exact OneRow.trigHhc amp
  | trigClap amp => exact OneRow.trigClap amp
  | trigTom amp => exact OneRow.trigTom amp
  | trigCowbell amp => exact OneRow.trigCowbell amp
  | trigHho amp => exact OneRow.trigHho amp
  | setTone tone => exact OneRow.setTone tone
  | setDecay idx => exact OneRow.setDecay idx

theorem matching_rows_of_decode_command {w : CmdWord} {i : Instr} (h : decode w = .command i) :
    (opcodeRows.filter fun r => r.fits w).map OpcodeRow.mnemonic = [i.mnemonic] := by
  obtain rfl := encode_of_decode h
  exact encode_matches_one_row i

theorem matching_rows_of_decode_reserved {w : CmdWord} {why : Reserved} (h : decode w = .reserved why) :
    (opcodeRows.filter fun r => r.fits w).map OpcodeRow.mnemonic = [] :=
  (isReserved_iff_no_matching_rows w).mp (isReserved_of_decode_reserved h)

/-- Settles O12: a word that decodes to a command is the command's own word, which matches one row; a reserved one
matches none. -/
theorem decoderFollowsTheOpcodeMap : Obligations.DecoderFollowsTheOpcodeMap := by
  intro w
  cases h : decode w with
  | command i => exact matching_rows_of_decode_command h
  | reserved why => exact matching_rows_of_decode_reserved h

/-! ### The five classes of reserved words (spec/30_encoding.md R62) -/

theorem isReserved_iff_decode (w : CmdWord) : isReserved w = true ↔ ∃ why, decode w = .reserved why := by
  constructor
  · intro hr
    cases h : decode w with
    | command i =>
      have hrows := (isReserved_iff_no_matching_rows w).mp hr
      rw [matching_rows_of_decode_command h] at hrows
      cases hrows
    | reserved why => exact ⟨why, rfl⟩
  · rintro ⟨why, h⟩
    exact isReserved_of_decode_reserved h

/-- The words of each class, on the numeric fields `op`, `sel` and `data` of the word. -/
def InReservedClass (w : CmdWord) : Reserved → Prop
  | .nopBits => w.toNat / 2 ^ 20 = 0 ∧ w.toNat % 2 ^ 20 ≠ 0
  | .triggerSelector => w.toNat / 2 ^ 20 = 1 ∧ w.toNat / 2 ^ 16 % 16 ∈ [6, 7, 8, 9, 11, 12, 13, 14, 15]
  | .parameterSelector => w.toNat / 2 ^ 20 = 2 ∧ 2 ≤ w.toNat / 2 ^ 16 % 16
  | .decayData => w.toNat / 2 ^ 20 = 2 ∧ w.toNat / 2 ^ 16 % 16 = 1 ∧ 3 < w.toNat % 2 ^ 16
  | .opcode => 3 ≤ w.toNat / 2 ^ 20

theorem opField_toNat (w : CmdWord) : (opField w).toNat = w.toNat / 2 ^ 20 := by
  have hw := w.isLt
  simp only [opField, BitVec.extractLsb'_toNat, Nat.shiftRight_eq_div_pow]
  omega

theorem selField_toNat (w : CmdWord) : (selField w).toNat = w.toNat / 2 ^ 16 % 16 := by
  simp only [selField, BitVec.extractLsb'_toNat, Nat.shiftRight_eq_div_pow]

theorem dataField_toNat (w : CmdWord) : (dataField w).toNat = w.toNat % 2 ^ 16 := by
  simp only [dataField, BitVec.extractLsb'_toNat, Nat.shiftRight_zero]

theorem decodeTrigger_eq_reserved {sel : BitVec 4} {amp : Word} {why : Reserved} :
    decodeTrigger sel amp = .reserved why ↔
      why = .triggerSelector ∧ sel.toNat ∈ [6, 7, 8, 9, 11, 12, 13, 14, 15] := by
  have hsel : sel.toNat < 16 := sel.isLt
  unfold decodeTrigger
  split
  case h_8 =>
    have hmem : sel.toNat ∈ [6, 7, 8, 9, 11, 12, 13, 14, 15] := by
      simp only [List.mem_cons, List.not_mem_nil, or_false, imp_false] at *
      omega
    simp [hmem, eq_comm]
  all_goals simp [*]

theorem decodeParameter_eq_reserved {sel : BitVec 4} {data : Word} {why : Reserved} :
    decodeParameter sel data = .reserved why ↔
      (why = .parameterSelector ∧ 2 ≤ sel.toNat) ∨ (why = .decayData ∧ sel.toNat = 1 ∧ 3 < data.toNat) := by
  unfold decodeParameter
  split
  next hsel => simp [hsel]
  next hsel =>
    split
    next hdata => simp [hsel, Nat.le_of_lt_succ hdata]
    next hdata => simp [hsel, Nat.le_of_not_lt hdata, eq_comm, Nat.lt_iff_add_one_le]
  next h0 h1 =>
    have hne : sel.toNat ≠ 1 := h1
    have h2 : 2 ≤ sel.toNat := (Nat.two_le_iff _).mpr ⟨h0, hne⟩
    simp [hne, h2, eq_comm]

/-- The decoder's case split, on the numeric opcode. -/
theorem decode_eq (w : CmdWord) : decode w =
    if w.toNat = 0 then .command .nop
    else if w.toNat / 2 ^ 20 = 1 then decodeTrigger (selField w) (dataField w)
    else if w.toNat / 2 ^ 20 = 2 then decodeParameter (selField w) (dataField w)
    else if w.toNat / 2 ^ 20 = 0 then .reserved .nopBits
    else .reserved .opcode := by
  have hop (op : BitVec 4) : opField w = op ↔ w.toNat / 2 ^ 20 = op.toNat := by
    rw [← opField_toNat, BitVec.toNat_inj]
  have hzero : w = 0 ↔ w.toNat = 0 := BitVec.toNat_inj.symm
  simp only [decode, hop, hzero]
  rfl

/-- The decoder names the class. -/
theorem decode_eq_reserved_iff (w : CmdWord) (why : Reserved) : decode w = .reserved why ↔ InReservedClass w why := by
  rw [decode_eq]
  split_ifs with hz h1 h2 h0
  · cases why <;> simp [InReservedClass, hz]
  · rw [decodeTrigger_eq_reserved, selField_toNat]
    cases why <;> simp only [InReservedClass, h1] <;> simp
  · rw [decodeParameter_eq_reserved, selField_toNat, dataField_toNat]
    cases why <;> simp only [InReservedClass, h2] <;> simp
  · have hlow : w.toNat % 2 ^ 20 ≠ 0 := by omega
    cases why <;> simp only [InReservedClass, h0, ne_eq, hlow] <;> simp
  · have hop : 3 ≤ w.toNat / 2 ^ 20 := by omega
    cases why <;> simp only [InReservedClass, h0, h1, h2, hop] <;> simp

theorem exists_reserved_iff {p : Reserved → Prop} :
    (∃ why, p why) ↔ p .nopBits ∨ p .triggerSelector ∨ p .parameterSelector ∨ p .decayData ∨ p .opcode := by
  constructor
  · rintro ⟨why, h⟩
    cases why <;> simp [h]
  · rintro (h | h | h | h | h) <;> exact ⟨_, h⟩

theorem isReserved_iff_inReservedClass (w : CmdWord) : isReserved w = true ↔ ∃ why, InReservedClass w why := by
  simp only [isReserved_iff_decode, decode_eq_reserved_iff]

theorem runCommand_of_isReserved {w : CmdWord} (h : isReserved w = true) (s : State) :
    runCommand w s = .next { s with fault := true } := by
  obtain ⟨why, hd⟩ := (isReserved_iff_decode w).mp h
  exact runCommand_of_decode_reserved hd s

/-! ### How many words are legal -/

/-- The legal words as numbers: `NOP`, the six plain triggers, the open Hi-hat, and `SET.TONE` with, right behind it,
the four words of `SET.DECAY`. -/
def legalWords : Finset ℕ :=
  {0} ∪ Finset.Ico 0x100000 0x160000 ∪ Finset.Ico 0x1A0000 0x1B0000 ∪ Finset.Ico 0x200000 0x210004

theorem isReserved_eq_false_iff (w : CmdWord) : isReserved w = false ↔ w.toNat ∈ legalWords := by
  have hw := w.isLt
  rw [← Bool.not_eq_true, isReserved_iff_inReservedClass, exists_reserved_iff]
  simp only [InReservedClass, legalWords, List.mem_cons, List.not_mem_nil, or_false, Finset.mem_union,
    Finset.mem_singleton, Finset.mem_Ico]
  omega

theorem filter_isReserved_eq_legalWords :
    (Finset.range (2 ^ 24)).filter (fun n => isReserved (BitVec.ofNat 24 n) = false) = legalWords := by
  have hlt : ∀ n ∈ legalWords, n < 2 ^ 24 := by
    intro n hn
    simp only [legalWords, Finset.mem_union, Finset.mem_singleton, Finset.mem_Ico] at hn
    omega
  ext n
  simp only [Finset.mem_filter, Finset.mem_range, isReserved_eq_false_iff, BitVec.toNat_ofNat]
  constructor
  · rintro ⟨hn, hmem⟩
    rwa [Nat.mod_eq_of_lt hn] at hmem
  · intro hmem
    exact ⟨hlt n hmem, by rwa [Nat.mod_eq_of_lt (hlt n hmem)]⟩

theorem card_union_Ico {s : Finset ℕ} {a b : ℕ} (h : ∀ n ∈ s, n < a) :
    (s ∪ Finset.Ico a b).card = s.card + (b - a) := by
  have hdisj : Disjoint s (Finset.Ico a b) := by
    rw [Finset.disjoint_left]
    intro n hn hmem
    exact absurd (Finset.mem_Ico.mp hmem).1 (Nat.not_le_of_lt (h n hn))
  rw [Finset.card_union_of_disjoint hdisj, Nat.card_Ico]

/-- `NOP`, six triggers, the open Hi-hat and `SET.TONE` of 65536 words each, and four words of `SET.DECAY`. -/
theorem card_legalWords : legalWords.card = 1 + 6 * 65536 + 65536 + (65536 + 4) := by
  rw [legalWords, card_union_Ico, card_union_Ico, card_union_Ico, Finset.card_singleton]
  all_goals
    simp only [Finset.mem_union, Finset.mem_singleton, Finset.mem_Ico]
    omega

/-- Settles O13: the decoder names the class of a reserved word, and the legal words are four ranges. -/
theorem reservedWordsAreTheListedClasses : Obligations.ReservedWordsAreTheListedClasses := by
  refine ⟨fun w => ⟨?_, isReserved_iff_decode w, fun s h => runCommand_of_isReserved h s⟩, ?_⟩
  · rw [isReserved_iff_inReservedClass, exists_reserved_iff]
    rfl
  · rw [filter_isReserved_eq_legalWords, card_legalWords]

end Sys2Proof.Proofs
end

section
/-! The output pins, cycle by cycle and over a run of clock cycles (spec/30_encoding.md R57, R58, R66;
spec/70_reset_and_hazards.md R170). -/

namespace Sys2Proof.Proofs

open Sys2Proof Sys2Proof.Machine Sys2Proof.Laws

section
variable {c : Cfg} {m m' : PinMachine} {p : PinCycle} {o : OutputPins}

/-! ### What one cycle shows and leaves behind -/

theorem outputPins_of_rstN_low (w : PinWatch) (s : State) (h : p.rstN = false) :
    outputPins c w p s = { out := 0, outValid := false, fault := false, cmdReady := false } := by
  simp [outputPins, h]

theorem outputPins_of_rstN_high (w : PinWatch) (s : State) (h : p.rstN = true) :
    outputPins c w p s =
      { out := s.out, outValid := s.outValid, fault := s.fault, cmdReady := cmdReady c w p } := by
  simp [outputPins, h]

theorem clockCycle_pins (h : clockCycle c m p = .ok (o, m')) : o = outputPins c m.watch p m.state := by
  obtain ⟨_, _, ho, _, _⟩ := clockCycle_ok h
  exact ho

/-- A cycle writes `OUT` and raises the pulse by its `TICK` alone; a reset cycle clears both. -/
theorem clockCycle_out (h : clockCycle c m p = .ok (o, m')) :
    m'.state.outValid = (p.rstN && p.tick) ∧
    m'.state.out = if p.rstN then (if p.tick then (tick c m.state).out else m.state.out) else 0 := by
  obtain ⟨es, hes, _, hstate, _⟩ := clockCycle_ok h
  rw [hstate]
  rcases cycleEvents_cases hes with ⟨hr, rfl⟩ | ⟨hr, taken, rfl⟩
  · rw [hr]
    exact ⟨rfl, rfl⟩
  · obtain ⟨hout, hvalid⟩ := out_after_cycle c p.tick taken p.cmd m.state
    rw [hr, hout, hvalid]
    exact ⟨rfl, rfl⟩

end

/-- Settles O53: the pins of a cycle are read off the state before it, and the next cycle's off the state after it,
where the cycle's own `TICK` decides `OUT` and the pulse. -/
theorem outValidMarksTheCycleAfterATick : Obligations.OutValidMarksTheCycleAfterATick := by
  intro c m m' p q o h
  have hpins := clockCycle_pins h
  obtain ⟨hvalid, hout⟩ := clockCycle_out h
  have hnext : q.rstN = true →
      (outputPins c m'.watch q m'.state).outValid = m'.state.outValid ∧
      (outputPins c m'.watch q m'.state).out = m'.state.out := by
    intro hq
    rw [outputPins_of_rstN_high _ _ hq]
    exact ⟨rfl, rfl⟩
  rw [hvalid, hout] at hnext
  refine ⟨?_, ?_, ?_, hnext, outputPins_of_rstN_low _ _⟩
  all_goals
    rw [hpins]
    cases hp : p.rstN with
    | false => rw [outputPins_of_rstN_low _ _ hp]; rfl
    | true => rw [outputPins_of_rstN_high _ _ hp]; rfl

/-! ### A run of cycles -/

section
variable {c : Cfg} {m m' : PinMachine} {p : PinCycle} {o : OutputPins}

/-- The events of a cycle without reset give rise to a sample exactly if they hold a `TICK`. -/
theorem outputStream_cycle (c : Cfg) (ticked taken : Bool) (w : CmdWord) (s : State) :
    outputStream c ((if ticked then [.tick] else []) ++ (if taken then [.cmd w] else [])) s =
      if ticked then [(tick c s).out] else [] := by
  cases ticked <;> cases taken <;> rfl

/-- One cycle as a trace: its events, the registers after them, and without a reset the sample it shows and the one
it leaves to be shown. -/
theorem clockCycle_trace (h : clockCycle c m p = .ok (o, m')) :
    ∃ es, cycleEvents c m.watch p = .ok es ∧ m'.watch = watchAfter c m.watch p ∧
      idle m'.state = idle (traceWith c es m.state) ∧
      (p.rstN = true → consumedSamples [o] = m.state.markedSample ∧
        m'.state.markedSample = outputStream c es m.state) := by
  obtain ⟨es, hes, hpins, hstate, hwatch⟩ := clockCycle_ok h
  obtain ⟨hvalid, hout⟩ := clockCycle_out h
  refine ⟨es, hes, hwatch, ?_, fun hr => ⟨?_, ?_⟩⟩
  · rw [hstate]
    exact idle_traceWith_congr c es (idle_idle m.state)
  · rw [hpins, outputPins_of_rstN_high _ _ hr]
    exact List.append_nil _
  · rcases cycleEvents_cases hes with ⟨hlow, _⟩ | ⟨_, taken, rfl⟩
    · rw [hr] at hlow
      cases hlow
    · rw [outputStream_cycle, State.markedSample, hvalid, hout, hr]
      cases p.tick <;> rfl

theorem clockCycles_cons {ps : List PinCycle} {os : List OutputPins} (h : clockCycles c m (p :: ps) = .ok (os, m')) :
    ∃ o os₁ m₁, os = o :: os₁ ∧ clockCycle c m p = .ok (o, m₁) ∧ clockCycles c m₁ ps = .ok (os₁, m') := by
  unfold clockCycles at h
  split at h
  next => cases h
  next o m₁ hp =>
    split at h
    next => cases h
    next os₁ last hps =>
      cases h
      exact ⟨o, os₁, m₁, rfl, hp, hps⟩

theorem pinEvents_cons {w : PinWatch} {ps : List PinCycle} {es more : List Event} (h : cycleEvents c w p = .ok es)
    (hmore : pinEvents c (watchAfter c w p) ps = .ok more) : pinEvents c w (p :: ps) = .ok (es ++ more) := by
  simp only [pinEvents, h, hmore]

theorem consumedSamples_cons (o : OutputPins) (os : List OutputPins) :
    consumedSamples (o :: os) = consumedSamples [o] ++ consumedSamples os := by
  simp [consumedSamples]

end

theorem clockCycles_trace {c : Cfg} (ps : List PinCycle) {m m' : PinMachine} {os : List OutputPins}
    (h : clockCycles c m ps = .ok (os, m')) :
    ∃ es, pinEvents c m.watch ps = .ok es ∧ idle m'.state = idle (traceWith c es m.state) ∧
      ((∀ p ∈ ps, p.rstN = true) →
        consumedSamples os ++ m'.state.markedSample = m.state.markedSample ++ outputStream c es m.state) := by
  induction ps generalizing m os with
  | nil =>
    cases h
    exact ⟨[], rfl, rfl, fun _ => (List.append_nil _).symm⟩
  | cons p ps ih =>
    obtain ⟨o, os₁, m₁, rfl, hp, hps⟩ := clockCycles_cons h
    obtain ⟨es, hes, hwatch, hidle, hsample⟩ := clockCycle_trace hp
    obtain ⟨more, hmore, hlast, hstream⟩ := ih hps
    refine ⟨es ++ more, pinEvents_cons hes (hwatch ▸ hmore), ?_, fun hr => ?_⟩
    · rw [hlast, traceWith_append]
      exact idle_traceWith_congr c more hidle
    · obtain ⟨hshown, hleft⟩ := hsample (hr p List.mem_cons_self)
      have htail := hstream fun q hq => hr q (List.mem_cons_of_mem p hq)
      calc consumedSamples (o :: os₁) ++ m'.state.markedSample
          = m.state.markedSample ++ (consumedSamples os₁ ++ m'.state.markedSample) := by
            rw [consumedSamples_cons, hshown, List.append_assoc]
        _ = m.state.markedSample ++ (outputStream c es m.state ++ outputStream c more m₁.state) := by
            rw [htail, hleft]
        _ = m.state.markedSample ++ outputStream c (es ++ more) m.state := by
            rw [outputStream_append, outputStream_congr c more hidle]

/-- Settles O54, by induction on the cycles: each shows the sample the one before it left, and leaves its own. -/
theorem clockCyclesShowTheOutputStream : Obligations.ClockCyclesShowTheOutputStream :=
  fun _ ps _ _ _ h => clockCycles_trace ps h

end Sys2Proof.Proofs
end

section
/-! `LfsrStep` (spec/40_noise_lfsr.md R80 to R82): the step in integers, its inverse, who steps the register in a tick,
and the period from the seed. -/

namespace Sys2Proof.Proofs

open Sys2Proof Sys2Proof.Machine Sys2Proof.Laws

/-! ### One step -/

theorem lfsrBit_eq_decide (l : Word) : lfsrBit l = decide (l.toNat % 2 = 1) := by
  simp [lfsrBit, BitVec.getLsbD, Nat.testBit_zero]

/-- The step as one XOR, with no case: the taps are taken or not. -/
theorem lfsrNext_eq_xor (c : Cfg) (l : Word) :
    lfsrNext c l = l >>> 1 ^^^ (if lfsrBit l then c.lfsrTaps else 0) := by
  unfold lfsrNext
  split
  · rfl
  · exact BitVec.xor_zero.symm

theorem lfsrNext_toNat (l : Word) :
    (lfsrNext cfgRef l).toNat = if l.toNat % 2 = 1 then (l.toNat / 2) ^^^ 0xB400 else l.toNat / 2 := by
  simp only [lfsrNext, lfsrBit_eq_decide, decide_eq_true_eq]
  split
  · rw [BitVec.toNat_xor, ushiftRight_one_toNat]
    rfl
  · exact ushiftRight_one_toNat l

/-- Settles O26: the step by the parity of the register, and its four values. -/
theorem lfsrStepIsTheGaloisStep : Obligations.LfsrStepIsTheGaloisStep :=
  ⟨fun l => ⟨lfsrBit_eq_decide l, lfsrNext_toNat l⟩, by decide, by decide, by decide, by decide⟩

/-- Settles O28, by running the register. -/
theorem goldenNoiseSequence : Obligations.GoldenNoiseSequence := by
  refine ⟨?bits, ?sixteen, ?twenty⟩
  case bits => rfl
  case sixteen => simp [lfsrNext, lfsrBit, cfgRef]
  case twenty => simp [lfsrNext, lfsrBit, cfgRef]

/-! ### The step backwards (spec/40_noise_lfsr.md R82) -/

/-- Bit 15 tells whether the taps were taken: they set it, and the shift has cleared it. -/
theorem lfsrNext_bit_fifteen (l : Word) : (lfsrNext cfgRef l).getLsbD 15 = lfsrBit l := by
  have htaps : cfgRef.lfsrTaps.getLsbD 15 = true := rfl
  rw [lfsrNext_eq_xor, BitVec.getLsbD_xor, BitVec.getLsbD_ushiftRight, BitVec.getLsbD_of_ge l (1 + 15) le_rfl]
  cases lfsrBit l <;> simp [htaps]

/-- A flag as a word has its one bit at the bottom. -/
theorem getLsbD_ite_one (b : Bool) (i : Nat) : (if b then 1 else 0 : Word).getLsbD i = (b && decide (i = 0)) := by
  cases b <;> simp

/-- A shift right by one is undone by a shift left and the bit shifted out. -/
theorem shiftLeft_ushiftRight_or_lfsrBit (l : Word) : (l >>> 1) <<< 1 ||| (if lfsrBit l then 1 else 0) = l := by
  apply BitVec.eq_of_getLsbD_eq
  intro i hi
  rw [BitVec.getLsbD_or, getLsbD_ite_one, BitVec.getLsbD_shiftLeft]
  cases i with
  | zero => simp [lfsrBit]
  | succ i => simp [hi, Nat.add_comm 1 i]

theorem lfsrNext_recover (l : Word) :
    (((lfsrNext cfgRef l ^^^ (if (lfsrNext cfgRef l).getLsbD 15 then 0xB400 else 0)) <<< 1) |||
      (if (lfsrNext cfgRef l).getLsbD 15 then 1 else 0)) = l := by
  have hshift : lfsrNext cfgRef l ^^^ (if lfsrBit l then (0xB400 : Word) else 0) = l >>> 1 := by
    rw [lfsrNext_eq_xor]
    exact xor_cancel_right (l >>> 1) _
  rw [lfsrNext_bit_fifteen, hshift, shiftLeft_ushiftRight_or_lfsrBit]

theorem lfsrNext_eq_zero_iff (l : Word) : lfsrNext cfgRef l = 0 ↔ l = 0 := by
  refine ⟨fun h => ?_, ?_⟩
  · by_contra hl
    exact lfsrNext_ne_zero hl h
  · rintro rfl
    rfl

/-! ### Along a trace the register stays nonzero (spec/10_state.md R29 (e)) -/

theorem eventWith_lfsr_ne_zero {s : State} (h : s.lfsr ≠ 0) (e : Event) : (eventWith cfgRef e s).lfsr ≠ 0 := by
  cases e with
  | reset => exact resetStateMeetsTheInvariant.noise_alive
  | tick => exact (tick_lfsr cfgRef s).symm ▸ lfsrAfterClap_ne_zero h
  | cmd w =>
    rw [eventWith]
    cases hd : decode w with
    | command i => rwa [commandWith_of_decode_command hd, performWith_lfsr]
    | reserved why => rwa [commandWith_of_decode_reserved hd, raiseIllegalCommand_lfsr]

theorem traceWith_lfsr_ne_zero (tr : List Event) {s : State} (h : s.lfsr ≠ 0) : (traceWith cfgRef tr s).lfsr ≠ 0 := by
  induction tr generalizing s with
  | nil => exact h
  | cons e tr ih => exact ih (eventWith_lfsr_ne_zero h e)

/-! ### Who steps the register in a tick (spec/40_noise_lfsr.md R81) -/

/-- A conditional step is the step repeated once or not at all. -/
theorem ite_eq_iterate_toNat {α : Type} (f : α → α) (b : Bool) (x : α) : (if b then f x else x) = f^[b.toNat] x := by
  cases b <;> rfl

theorem lfsrAfterClap_eq_iterate (c : Cfg) (s : State) :
    lfsrAfterClap c s = (lfsrNext c)^[(s.snare.act.toNat + s.hihat.act.toNat) + s.clap.act.toNat] s.lfsr := by
  simp only [lfsrAfterClap, lfsrAfterHihat, lfsrAfterSnare, ite_eq_iterate_toNat, ← Function.iterate_add_apply]
  congr 1
  omega

theorem kickSample_eq (c : Cfg) (s : State) :
    kickSample c s = ({ s with kick := kickAfter c s }, kickValue c s) :=
  Prod.ext (kickSample_state c s) (kickSample_value c s)

theorem tomSample_eq (c : Cfg) (s : State) : tomSample c s = ({ s with tom := tomAfter c s }, tomValue c s) :=
  Prod.ext (tomSample_state c s) (tomSample_value c s)

theorem cowbellSample_eq (c : Cfg) (s : State) :
    cowbellSample c s = ({ s with cowbell := cowbellAfter c s }, cowbellValue c s) :=
  Prod.ext (cowbellSample_state c s) (cowbellSample_value c s)

/-- Settles O29: each noise voice's step is conditional on its flag, and a tick makes the three one after the other. -/
theorem noiseStepsOncePerActiveNoiseVoice : Obligations.NoiseStepsOncePerActiveNoiseVoice := by
  intro c s
  refine ⟨?snare, ?hihat, ?clap, ?others, ?tick⟩
  case snare => rw [snareSample_state, lfsrAfterSnare]
  case hihat => rw [hihatSample_state]
  case clap => rw [clapSample_state]
  case others =>
    intro l
    simp only [kickSample_eq, tomSample_eq, cowbellSample_eq]
    exact ⟨rfl, rfl, rfl⟩
  case tick => rw [tick_lfsr, lfsrAfterClap_eq_iterate]

end Sys2Proof.Proofs
end

section
/-! Maps of words that keep XOR, as 16-by-16 bit matrices: the columns of such a map determine it, and squaring the
columns gives a high power of the map in few operations. `LfsrStep` is one of them. -/

namespace Sys2Proof.Proofs

open Sys2Proof Sys2Proof.Machine

/-- `g` is linear over the field of two elements. -/
def KeepsXor (g : Word → Word) : Prop := ∀ a b, g (a ^^^ b) = g a ^^^ g b

theorem KeepsXor.map_zero {g : Word → Word} (hg : KeepsXor g) : g 0 = 0 :=
  calc g 0 = g (0 ^^^ 0) := rfl
    _ = g 0 ^^^ g 0 := hg 0 0
    _ = 0 := BitVec.xor_self

theorem KeepsXor.comp {g h : Word → Word} (hg : KeepsXor g) (hh : KeepsXor h) : KeepsXor (g ∘ h) := fun a b =>
  (congrArg g (hh a b)).trans (hg _ _)

theorem lfsrBit_xor (a b : Word) : lfsrBit (a ^^^ b) = (lfsrBit a ^^ lfsrBit b) := BitVec.getLsbD_xor

theorem keepsXor_lfsrNext (c : Cfg) : KeepsXor (lfsrNext c) := by
  intro a b
  have htaps : (if lfsrBit (a ^^^ b) then c.lfsrTaps else 0) =
      (if lfsrBit a then c.lfsrTaps else 0) ^^^ (if lfsrBit b then c.lfsrTaps else 0) := by
    rw [lfsrBit_xor]
    cases lfsrBit a <;> cases lfsrBit b <;> simp
  simp only [lfsrNext_eq_xor, htaps, BitVec.ushiftRight_xor_distrib]
  ac_rfl

/-- The XOR of the columns that the bits of `l` select, bit 0 the first: the matrix applied to `l`. -/
def selectXor : List Word → Word → Word
  | [], _ => 0
  | col :: cols, l => (if lfsrBit l then col else 0) ^^^ selectXor cols (l >>> 1)

/-- The words `1, 2, 4, …`, as many as asked for. -/
def unitWords : Nat → List Word
  | 0 => []
  | n + 1 => 1 :: (unitWords n).map fun col : Word => col <<< 1

/-- The matrix of `g`. -/
def columns (g : Word → Word) : List Word := (unitWords 16).map g

theorem selectXor_map {g : Word → Word} (hg : KeepsXor g) (cols : List Word) (l : Word) :
    selectXor (cols.map g) l = g (selectXor cols l) := by
  induction cols generalizing l with
  | nil => exact hg.map_zero.symm
  | cons col cols ih => rw [List.map_cons, selectXor, selectXor, ih, hg, apply_ite g, hg.map_zero]

theorem keepsXor_shiftLeft (k : Nat) : KeepsXor fun l => l <<< k := fun a b => BitVec.shiftLeft_xor_distrib a b k

/-- The first `n` unit words select the low `n` bits. -/
theorem getLsbD_selectXor_unitWords (n : Nat) (l : Word) (i : Nat) :
    (selectXor (unitWords n) l).getLsbD i = (decide (i < n) && l.getLsbD i) := by
  induction n generalizing l i with
  | zero => simp [unitWords, selectXor]
  | succ n ih =>
    rw [unitWords, selectXor, selectXor_map (keepsXor_shiftLeft 1), BitVec.getLsbD_xor, getLsbD_ite_one,
      BitVec.getLsbD_shiftLeft, ih, BitVec.getLsbD_ushiftRight]
    cases i with
    | zero => simp [lfsrBit]
    | succ i =>
      by_cases hi : i + 1 < 16
      · simp [hi, Nat.add_comm 1 i]
      · simp [hi, BitVec.getLsbD_of_ge l (i + 1) (Nat.le_of_not_lt hi)]

theorem selectXor_columns {g : Word → Word} (hg : KeepsXor g) : selectXor (columns g) = g := by
  funext l
  have hid : selectXor (unitWords 16) l = l := by
    apply BitVec.eq_of_getLsbD_eq
    intro i hi
    rw [getLsbD_selectXor_unitWords, decide_eq_true hi, Bool.true_and]
  rw [columns, selectXor_map hg, hid]

/-- The map with the matrix `cols` applied `n` times, by squaring the matrix `k` times; `n` is below `2 ^ k`. -/
def powerXor : (k n : Nat) → (cols : List Word) → Word → Word
  | 0, _, _, l => l
  | k + 1, n, cols, l =>
    powerXor k (n / 2) (cols.map (selectXor cols)) (if n % 2 = 1 then selectXor cols l else l)

theorem powerXor_columns {g : Word → Word} (hg : KeepsXor g) {k n : Nat} (hn : n < 2 ^ k) (l : Word) :
    powerXor k n (columns g) l = g^[n] l := by
  induction k generalizing g n l with
  | zero => rw [powerXor, Nat.lt_one_iff.mp hn, Function.iterate_zero_apply]
  | succ k ih =>
    have hsquare : (columns g).map g = columns g^[2] := List.map_map
    have hodd : (if n % 2 = 1 then g l else l) = g^[n % 2] l := by
      obtain h | h := Nat.mod_two_eq_zero_or_one n <;> rw [h] <;> rfl
    have htwice : KeepsXor g^[2] := hg.comp hg
    have hhalf : n / 2 < 2 ^ k := by omega
    rw [powerXor, selectXor_columns hg, hsquare, ih htwice hhalf, hodd, ← Function.iterate_mul,
      ← Function.iterate_add_apply, Nat.div_add_mod]

end Sys2Proof.Proofs
end

section
/-! The period of the register from the seed 0xACE1 (spec/40_noise_lfsr.md R82): 65535 steps return to it, none of the
maximal proper divisors of 65535 does, and 65535 different nonzero words are all there are. -/

namespace Sys2Proof.Proofs

open Sys2Proof Sys2Proof.Machine
open Function (IsPeriodicPt minimalPeriod)

theorem minimalPeriod_eq_of_prime_quotients {α : Type} {f : α → α} {x : α} {n : Nat}
    (hper : IsPeriodicPt f n x) (hprime : ∀ p, p.Prime → p ∣ n → ¬ IsPeriodicPt f (n / p) x) :
    minimalPeriod f x = n := by
  obtain ⟨a, ha⟩ := hper.minimalPeriod_dvd
  by_contra hne
  have ha1 : a ≠ 1 := by
    rintro rfl
    exact hne (by omega)
  obtain ⟨p, hp, b, rfl⟩ := Nat.exists_prime_and_dvd ha1
  have hquot : n / p = minimalPeriod f x * b := by
    rw [ha, Nat.mul_left_comm, Nat.mul_div_cancel_left _ hp.pos]
  refine hprime p hp ⟨minimalPeriod f x * b, by rw [ha, Nat.mul_left_comm]⟩ ?_
  exact Function.isPeriodicPt_iff_minimalPeriod_dvd.mpr ⟨b, hquot⟩

theorem mem_of_prime_dvd_65535 {p : Nat} (hp : p.Prime) (h : p ∣ 65535) : p ∈ [3, 5, 17, 257] := by
  have hfactor : 65535 = 3 * (5 * (17 * 257)) := rfl
  have h257 : Nat.Prime 257 := by norm_num
  rw [hfactor, hp.dvd_mul, hp.dvd_mul, hp.dvd_mul, Nat.prime_dvd_prime_iff_eq hp Nat.prime_three,
    Nat.prime_dvd_prime_iff_eq hp Nat.prime_five, Nat.prime_dvd_prime_iff_eq hp (by decide),
    Nat.prime_dvd_prime_iff_eq hp h257] at h
  simpa using h

/-- Every power of the step up to 65535, evaluated by squaring its matrix. -/
theorem iterate_lfsrNext {n : Nat} (hn : n < 2 ^ 16) (l : Word) :
    (lfsrNext cfgRef)^[n] l = powerXor 16 n (columns (lfsrNext cfgRef)) l :=
  (powerXor_columns (keepsXor_lfsrNext cfgRef) hn l).symm

set_option maxRecDepth 1000 in
theorem isPeriodicPt_seed : IsPeriodicPt (lfsrNext cfgRef) 65535 0xACE1 := by
  refine (iterate_lfsrNext (by decide) _).trans ?_
  decide

theorem powerXor_prime_quotients : ∀ p ∈ [3, 5, 17, 257],
    powerXor 16 (65535 / p) (columns (lfsrNext cfgRef)) 0xACE1 ≠ 0xACE1 := by decide

theorem minimalPeriod_seed : minimalPeriod (lfsrNext cfgRef) 0xACE1 = 65535 := by
  refine minimalPeriod_eq_of_prime_quotients isPeriodicPt_seed fun p hp hdvd hper => ?_
  refine powerXor_prime_quotients p (mem_of_prime_dvd_65535 hp hdvd) ?_
  rw [← iterate_lfsrNext ((Nat.div_le_self 65535 p).trans_lt (by decide))]
  exact hper

theorem iterate_ne_zero {f : Word → Word} (hf : ∀ l, l ≠ 0 → f l ≠ 0) {x : Word} (hx : x ≠ 0) (n : Nat) :
    f^[n] x ≠ 0 := by
  induction n with
  | zero => exact hx
  | succ n ih => rw [Function.iterate_succ_apply']; exact hf _ ih

/-- An orbit of 65535 nonzero words holds every nonzero word. -/
theorem exists_iterate_eq_of_minimalPeriod {f : Word → Word} (hf : ∀ l, l ≠ 0 → f l ≠ 0) {x : Word} (hx : x ≠ 0)
    (hper : minimalPeriod f x = 65535) {l : Word} (hl : l ≠ 0) : ∃ n, n < 65535 ∧ f^[n] x = l := by
  have hpos (m : Word) (hm : m ≠ 0) : m.toNat ∈ Finset.Ioo 0 65536 :=
    Finset.mem_Ioo.mpr ⟨Nat.pos_of_ne_zero fun h => hm (BitVec.eq_of_toNat_eq h), m.isLt⟩
  have hmaps : Set.MapsTo (fun n => (f^[n] x).toNat) (Finset.range 65535) (Finset.Ioo 0 65536) := fun n _ =>
    hpos _ (iterate_ne_zero hf hx n)
  have hinj : Set.InjOn (fun n => (f^[n] x).toNat) (Finset.range 65535) := by
    rw [Finset.coe_range, ← hper]
    exact BitVec.toNat_injective.comp_injOn Function.iterate_injOn_Iio_minimalPeriod
  have hsurj := Finset.surjOn_of_injOn_of_card_le _ hmaps hinj (by rw [Nat.card_Ioo, Finset.card_range])
  obtain ⟨n, hn, heq⟩ := hsurj (hpos l hl)
  exact ⟨n, Finset.mem_range.mp hn, BitVec.eq_of_toNat_eq heq⟩

/-- Settles O27: the rule's inverse, the invariant that the register is nonzero, and the period from the seed. -/
theorem lfsrVisitsEveryNonzeroValue : Obligations.LfsrVisitsEveryNonzeroValue := by
  refine ⟨lfsrNext_recover, lfsrNext_eq_zero_iff, ?alive, isPeriodicPt_seed, ?notBefore, ?visits⟩
  case alive => exact fun tr => traceWith_lfsr_ne_zero tr resetStateMeetsTheInvariant.noise_alive
  case notBefore =>
    intro n hpos hlt
    exact Function.not_isPeriodicPt_of_pos_of_lt_minimalPeriod hpos.ne' (minimalPeriod_seed.symm ▸ hlt)
  case visits =>
    intro l hl
    exact exists_iterate_eq_of_minimalPeriod (fun _ => lfsrNext_ne_zero) (by decide) minimalPeriod_seed hl

end Sys2Proof.Proofs
end

section
/-! The arithmetic helpers of a tick: `GateFires`, `Decay`, `Scale8` and `Sweep` (spec/41_mixer_tick.md R91, R92, R93,
R95). -/

namespace Sys2Proof.Proofs

open Sys2Proof Sys2Proof.Machine Sys2Proof.Laws

/-! ### The gate (R91) -/

theorem iterate_gateCount_toNat (cnt : Byte) (k : Nat) : (gateCount^[k] cnt).toNat = (cnt.toNat + k) % 256 := by
  induction k with
  | zero => exact (Nat.mod_eq_of_lt cnt.isLt).symm
  | succ k ih => rw [Function.iterate_succ_apply', gateCount_toNat, ih, Nat.mod_add_mod, Nat.add_assoc]

/-- The counter wraps at 256, of which every mask's period is a divisor. -/
theorem gateFires_mask_iff {n : Nat} (hn : n ≤ 8) (cnt : Byte) :
    gateFires cnt (u8 (2 ^ n - 1)) = true ↔ (cnt.toNat + 1) % 2 ^ n = 0 := by
  have hperiod : 2 ^ n ∣ 256 := pow_dvd_pow 2 hn
  have hmask : (u8 (2 ^ n - 1)).toNat = 2 ^ n - 1 := by
    have hle := Nat.le_of_dvd (by decide) hperiod
    have hpos := Nat.two_pow_pos n
    exact Nat.mod_eq_of_lt (by omega)
  rw [gateFires, decide_eq_true_iff, ← BitVec.toNat_inj, BitVec.toNat_and, hmask, gateCount_toNat,
    Nat.and_two_pow_sub_one_eq_mod, Nat.mod_mod_of_dvd _ hperiod]
  rfl

theorem gateFires_iterate_iff {n : Nat} (hn : n ≤ 8) (cnt : Byte) (k : Nat) :
    gateFires (gateCount^[k] cnt) (u8 (2 ^ n - 1)) = true ↔ (cnt.toNat + k + 1) % 2 ^ n = 0 := by
  have hperiod : 2 ^ n ∣ 256 := pow_dvd_pow 2 hn
  rw [gateFires_mask_iff hn, iterate_gateCount_toNat, ← Nat.mod_mod_of_dvd _ hperiod, Nat.mod_add_mod,
    Nat.mod_mod_of_dvd _ hperiod]

/-- Of `m` consecutive numbers one is a multiple of `m`. -/
theorem count_multiple_in_period {m : Nat} (hm : 0 < m) (a : Nat) : Nat.count (fun k => (a + k) % m = 0) m = 1 := by
  have hinverse : a + (m - 1) * a ≡ 0 [MOD m] := by
    refine Nat.modEq_zero_iff_dvd.mpr ⟨a, ?_⟩
    rw [Nat.add_comm, ← Nat.succ_mul, Nat.succ_eq_add_one, Nat.sub_add_cancel hm]
  have hiff (k : Nat) : (a + k) % m = 0 ↔ k ≡ (m - 1) * a [MOD m] :=
    calc (a + k) % m = 0
        ↔ a + k ≡ 0 [MOD m] := by rw [Nat.modEq_zero_iff_dvd, Nat.dvd_iff_mod_eq_zero]
      _ ↔ a + k ≡ a + (m - 1) * a [MOD m] := ⟨(·.trans hinverse.symm), (·.trans hinverse)⟩
      _ ↔ k ≡ (m - 1) * a [MOD m] := ⟨Nat.ModEq.add_left_cancel' a, Nat.ModEq.add_left a⟩
  simp only [hiff, Nat.count_modEq_card m hm, Nat.div_self hm, Nat.mod_self, Nat.not_lt_zero, if_false]

/-- Settles O30: the counter counts modulo 256, the mask tests it modulo 2^n, and one of 2^n consecutive numbers is a
multiple of 2^n. -/
theorem gateFiresOncePerPeriod : Obligations.GateFiresOncePerPeriod := by
  intro n cnt hn
  refine ⟨fun k => ⟨iterate_gateCount_toNat cnt k, gateFires_iterate_iff hn cnt k⟩, ?_⟩
  have hfires (k : Nat) :
      gateFires (gateCount^[k] cnt) (u8 (2 ^ n - 1)) = decide ((cnt.toNat + 1 + k) % 2 ^ n = 0) := by
    rw [Bool.eq_iff_iff, gateFires_iterate_iff hn, decide_eq_true_iff, Nat.add_right_comm]
  simp only [hfires]
  rw [← List.countP_eq_length_filter]
  exact count_multiple_in_period (Nat.two_pow_pos n) (cnt.toNat + 1)

/-! ### The decay (R92) -/

theorem decay_toNat_lt {v : Word} (hv : v ≠ 0) (sh : Fin 16) : (decay v sh).toNat < v.toNat := by
  have hpos : 0 < v.toNat := Nat.pos_of_ne_zero fun h => hv (BitVec.eq_of_toNat_eq h)
  rw [decay_toNat]
  exact Nat.sub_lt hpos (one_le_decrement v sh)

/-- Settles O31: the clamp is truncated subtraction of at least 1; the examples are evaluated. -/
theorem decayLowersEveryPositiveVolume : Obligations.DecayLowersEveryPositiveVolume := by
  refine ⟨fun v sh => ⟨?value, fun hv => decay_toNat_lt hv sh, decayIf_zero true sh⟩, by decide⟩
  case value =>
    have hcast : (decrement v sh : Int) = max 1 (v.toNat / 2 ^ sh.val) := mod_cast decrement_eq v sh
    rw [decay_toNat, ← hcast]
    omega

/-! ### The scaling (R93) -/

theorem scale8_lt {x : Nat} (hx : 0 < x) (vol : Word) : scale8 x vol < x := by
  rw [scale8_eq]
  have hhigh := volume_high_le vol
  apply Nat.div_lt_of_lt_mul
  rw [Nat.mul_comm]
  exact Nat.mul_lt_mul_of_pos_right (by omega) hx

/-- Settles O32: the value, whose factor `vol / 256` is at most 255. -/
theorem scaledSampleIsBelowTheSample : Obligations.ScaledSampleIsBelowTheSample := by
  intro x vol hx
  have hvol := vol.isLt
  refine ⟨scale8_eq x vol, Nat.mul_le_mul hx (volume_high_le vol), scale8_le vol hx,
    fun hpos => Nat.le_sub_one_of_lt (scale8_lt hpos vol), ?quiet, ?low⟩
  case quiet =>
    intro hlt
    rw [scale8_eq, Nat.div_eq_of_lt hlt, Nat.mul_zero]
  case low =>
    have hhigh : (u16 (vol.toNat / 256 * 256)).toNat = vol.toNat / 256 * 256 := Nat.mod_eq_of_lt (by omega)
    rw [scale8_eq, scale8_eq, hhigh, Nat.mul_div_cancel _ (by decide)]

/-! ### The sweep (R95) -/

theorem sweep_of_le {step target : Word} (h : step.toNat ≤ target.toNat) (sh : Fin 16) :
    sweep step target sh = step := if_neg (Nat.not_lt.mpr h)

theorem sweep_toNat_of_lt {step target : Word} (h : target.toNat < step.toNat) (sh : Fin 16) :
    (sweep step target sh).toNat = step.toNat - max 1 (step.toNat / 2 ^ sh.val) := by
  rw [sweep_toNat, if_pos h, decrement_eq]

/-- Settles O33, by the two cases of the comparison; a step that lands below the target was lowered by more than 1. -/
theorem sweepOnlyGoesDown : Obligations.SweepOnlyGoesDown := by
  intro step target sh
  have hshift : step.toNat / 2 ^ sh.val ≤ step.toNat := Nat.div_le_self _ _
  obtain hle | hlt := le_or_gt step.toNat target.toNat
  · rw [sweep_of_le hle]
    exact ⟨fun _ => rfl, fun h => absurd h hle.not_gt, le_rfl, fun h => absurd h hle.not_gt⟩
  · have hvalue := sweep_toNat_of_lt hlt sh
    refine ⟨fun h => absurd hlt h.not_gt, fun _ => ⟨?_, hvalue⟩, ?_, fun _ hbelow => ?_⟩ <;> omega

end Sys2Proof.Proofs
end

section
/-! The six contributions of a tick and what the mixer makes of them (spec/41_mixer_tick.md R86 to R90, R96). -/

namespace Sys2Proof.Proofs

open Sys2Proof Sys2Proof.Machine Sys2Proof.Laws

/-! ### One contribution, under a wave table of at most `m` (R96) -/

theorem u16_toNat_le {n b : Nat} (h : n ≤ b) : (u16 n).toNat ≤ b := (Nat.mod_le n _).trans h

/-- An idle voice contributes 0 (R94). -/
theorem ite_zero_toNat_le {x : I16} {b : Nat} (h : x.toNat ≤ b) (act : Bool) :
    (if act then x else 0).toNat ≤ b := by
  cases act with
  | false => exact Nat.zero_le b
  | true => exact h

theorem half_sum_le {x y b : Nat} (hx : x ≤ b) (hy : y ≤ b + 1) : (x + y) >>> 1 ≤ b := by
  rw [Nat.shiftRight_eq_div_pow]
  omega

theorem kickFilter_le (c : Cfg) {cur b : Nat} {prev : Byte} (hcur : cur ≤ b) (hprev : prev.toNat ≤ b + 1) :
    kickFilter c cur prev ≤ b := by
  unfold kickFilter
  split
  · exact half_sum_le hcur hprev
  · exact hcur

theorem snareNoiseBits_le {c : Cfg} {b : Nat} (h : c.snNoiseMask.toNat ≤ b) (l : Word) : snareNoiseBits c l ≤ b :=
  Nat.and_le_right.trans h

theorem metallic_le (ph1 ph2 : Word) : metallic ph1 ph2 ≤ 64 := by
  unfold metallic square
  cases ph1.getLsbD 15 <;> cases ph2.getLsbD 15 <;> decide

theorem hihatNoiseBits_le (l : Word) : hihatNoiseBits l ≤ 127 := Nat.and_le_right

theorem clapNoise_toNat_le (bit : Bool) (vol : Word) : (clapNoise bit vol).toNat ≤ 255 := by
  refine ite_zero_toNat_le (u16_toNat_le ?_) bit
  rw [Nat.shiftRight_eq_div_pow]
  exact volume_high_le vol

theorem clapTick_contribution_le (c : Cfg) (mask : Byte) (bit : Bool) (r : Clap) :
    (clapTick c mask bit r).2.toNat ≤ 255 := by
  by_cases hs : r.stut = 0
  · rw [clapTick_of_stut_eq hs]
    exact clapNoise_toNat_le bit _
  · rw [clapTick_of_stut_ne hs]
    unfold clapBurst
    split
    · exact clapNoise_toNat_le bit _
    · split <;> exact Nat.zero_le _

theorem hihatValue_le (c : Cfg) (s : State) : (hihatValue c s).toNat ≤ 190 := by
  refine ite_zero_toNat_le (u16_toNat_le ?_) _
  exact scale8_le (m := 191) _ (Nat.add_le_add (metallic_le _ _) (hihatNoiseBits_le _))

theorem clapValue_le (c : Cfg) (s : State) : (clapValue c s).toNat ≤ 255 :=
  ite_zero_toNat_le (clapTick_contribution_le c _ _ _) _

section WaveBound
variable {c : Cfg} {m : Nat} (hwave : ∀ i, (waveRead c i).toNat ≤ m) (s : State)
include hwave

/-- The low-pass memory may hold one more than a sample: the average rounds down. -/
theorem kickValue_le (hprev : s.kick.prev.toNat ≤ m * 255 / 256 + 1) : (kickValue c s).toNat ≤ m * 255 / 256 :=
  ite_zero_toNat_le (u16_toNat_le (kickFilter_le c (scale8_le _ (hwave _)) hprev)) _

theorem snareValue_le {b : Nat} (hmask : c.snNoiseMask.toNat ≤ b) :
    (snareValue c s).toNat ≤ m * 255 / 256 + b * 255 / 256 :=
  ite_zero_toNat_le (u16_toNat_le (Nat.add_le_add (scale8_le _ (hwave _)) (scale8_le _ (snareNoiseBits_le hmask _)))) _

theorem tomValue_le : (tomValue c s).toNat ≤ m * 255 / 256 :=
  ite_zero_toNat_le (u16_toNat_le (scale8_le _ (hwave _))) _

theorem cowbellValue_le : (cowbellValue c s).toNat ≤ m * 255 / 256 := by
  refine ite_zero_toNat_le (u16_toNat_le (scale8_le _ (half_sum_le (hwave _) ?_))) _
  exact (hwave _).trans (Nat.le_succ m)

theorem contributions_le (hmask : c.snNoiseMask.toNat ≤ 255) (hprev : s.kick.prev.toNat ≤ m * 255 / 256 + 1) :
    (runVoices c s).c0.toNat ≤ m * 255 / 256 ∧ (runVoices c s).c1.toNat ≤ m * 255 / 256 + 254 ∧
    (runVoices c s).c2.toNat ≤ 190 ∧ (runVoices c s).c3.toNat ≤ 255 ∧
    (runVoices c s).c4.toNat ≤ m * 255 / 256 ∧ (runVoices c s).c5.toNat ≤ m * 255 / 256 := by
  simp only [runVoices_c0, runVoices_c1, runVoices_c2, runVoices_c3, runVoices_c4, runVoices_c5]
  exact ⟨kickValue_le hwave s hprev, snareValue_le hwave s hmask, hihatValue_le c s, clapValue_le c s,
    tomValue_le hwave s, cowbellValue_le hwave s⟩

end WaveBound

/-! ### The configurations in range, and this hardware's -/

theorem byte_toNat_le (b : Byte) : b.toNat ≤ 255 := Nat.le_of_lt_succ b.isLt

theorem le_of_isGateMask {lo k : Nat} (h : isGateMask lo k = true) : k ≤ 255 := by
  obtain ⟨n, hn, hk⟩ := List.any_eq_true.mp h
  have hpow : 2 ^ n ≤ 2 ^ 8 := Nat.pow_le_pow_right (by decide) (Nat.le_of_lt_succ (List.mem_range.mp hn))
  have hform : k = 2 ^ n - 1 := of_decide_eq_true (Bool.and_eq_true_iff.mp hk).2
  omega

theorem snNoiseMask_le_of_wf {c : Cfg} (h : c.wf = true) : c.snNoiseMask.toNat ≤ 255 := by
  simp only [Cfg.wf, Bool.and_eq_true] at h
  obtain ⟨⟨⟨⟨⟨⟨-, hmask⟩, -⟩, -⟩, -⟩, -⟩, -⟩ := h
  exact le_of_isGateMask hmask

/-- Settles O43: one bound for each contribution in terms of the table's, which is 255 for any bytes and 250 for the
reference table. -/
theorem contributionsAreBounded : Obligations.ContributionsAreBounded := by
  refine ⟨fun c s hwf => ?inRange, fun s hprev => ?reference⟩
  case inRange =>
    exact contributions_le (m := 255) (fun _ => byte_toNat_le _) s (snNoiseMask_le_of_wf hwf) (byte_toNat_le _)
  case reference =>
    exact contributions_le (m := 250) waveRead_le s (by decide) (hprev.trans (by decide))

/-! ### The accumulator and the clamp (R88, R89) -/

/-- The headroom shift is division by 2, rounding down. -/
theorem sshiftRight_one_toInt (acc : I16) : (acc.sshiftRight 1).toInt = acc.toInt / 2 := by
  rw [BitVec.toInt_sshiftRight, Int.shiftRight_eq_div_pow]
  rfl

theorem clampSample_toNat (acc : I16) : ((clampSample acc).toNat : Int) = max 0 (min 255 (acc.toInt / 2)) := by
  simp only [clampSample, sshiftRight_one_toInt]
  split
  next habove =>
    rw [min_eq_left habove.le]
    rfl
  next hle =>
    split
    next hneg =>
      rw [max_eq_left (min_le_of_right_le hneg.le)]
      rfl
    next hpos =>
      rw [BitVec.toNat_ofInt]
      omega

/-- An accumulator that holds the natural number `n`. -/
theorem clampSample_of_toInt_eq {acc : I16} {n : Nat} (h : acc.toInt = n) : clampSample acc = u8 (min 255 (n / 2)) := by
  have hclamp := clampSample_toNat acc
  rw [h] at hclamp
  apply BitVec.eq_of_toNat_eq
  rw [BitVec.toNat_ofNat]
  omega

/-- A sum of contributions below 32768 does not overflow the accumulator. -/
theorem mixSum_toInt {p : VoicePass}
    (h : p.c0.toNat + p.c1.toNat + p.c2.toNat + p.c3.toNat + p.c4.toNat + p.c5.toNat < 32768) :
    (mixSum p).toInt = ↑(p.c0.toNat + p.c1.toNat + p.c2.toNat + p.c3.toNat + p.c4.toNat + p.c5.toNat) := by
  have hnat : (mixSum p).toNat = p.c0.toNat + p.c1.toNat + p.c2.toNat + p.c3.toNat + p.c4.toNat + p.c5.toNat := by
    simp only [mixSum, BitVec.toNat_add]
    omega
  rw [BitVec.toInt_eq_toNat_of_lt (by omega), hnat]

/-- Settles O44: the bounds of O43 add up to 1715, which the accumulator holds exactly, and the
clamp of that sum is what a tick writes. -/
theorem tickIsTheSixSamplesAndTheClampedHalfSum : Obligations.TickIsTheSixSamplesAndTheClampedHalfSum := by
  refine ⟨clampSample_toNat, fun c s hwf => ?_⟩
  obtain ⟨h0, h1, h2, h3, h4, h5⟩ := contributionsAreBounded.1 c s hwf
  have hsum := mixSum_toInt (p := runVoices c s) (by omega)
  refine ⟨?bound, hsum, ?tick⟩
  case bound =>
    show (runVoices c s).c0.toNat + (runVoices c s).c1.toNat + (runVoices c s).c2.toNat + (runVoices c s).c3.toNat +
      (runVoices c s).c4.toNat + (runVoices c s).c5.toNat ≤ 1715
    omega
  case tick =>
    rw [tick, clampSample_of_toInt_eq hsum]
    rfl

end Sys2Proof.Proofs
end

section
/-! The six micro-operations in any order that keeps the noise voices' (spec/41_mixer_tick.md R87): the state between
two of them depends on which have run, not on their order. -/

namespace Sys2Proof.Proofs

open Sys2Proof Sys2Proof.Machine Sys2Proof.Laws

/-! ### The state once some of the voices have run -/

/-- `LFSR` once this many of the noise voices have run, in their fixed order. -/
def lfsrAfterNoise (c : Cfg) (s : State) : Nat → Word
  | 0 => s.lfsr
  | 1 => lfsrAfterSnare c s
  | 2 => lfsrAfterHihat c s
  | _ => lfsrAfterClap c s

/-- The state once the voices of `ran` have run, each with the registers that a whole tick gives it. -/
def partway (c : Cfg) (s : State) (ran : List Voice) : State :=
  { s with
    lfsr := lfsrAfterNoise c s (ran.countP Voice.isNoise)
    kick := if .kick ∈ ran then kickAfter c s else s.kick
    snare := if .snare ∈ ran then snareAfter c s else s.snare
    hihat := if .hihat ∈ ran then hihatAfter c s else s.hihat
    clap := if .clap ∈ ran then clapAfter c s else s.clap
    tom := if .tom ∈ ran then tomAfter c s else s.tom
    cowbell := if .cowbell ∈ ran then cowbellAfter c s else s.cowbell }

theorem partway_eq_runVoices (c : Cfg) (s : State) {ran : List Voice} (hall : ∀ v, v ∈ ran)
    (hcount : ran.countP Voice.isNoise = 3) : partway c s ran = (runVoices c s).state := by
  simp only [partway, hall, if_true, hcount, lfsrAfterNoise, runVoices_state]

/-! ### Whose turn it is -/

/-- How many noise voices run before a noise voice. -/
def noiseRank : Voice → Nat
  | .snare => 0
  | .hihat => 1
  | .clap => 2
  | .kick => 0
  | .tom => 0
  | .cowbell => 0

/-- It is `v`'s turn: it has not run, and if it is a noise voice, just those before it have. -/
structure Turn (ran : List Voice) (v : Voice) : Prop where
  fresh : v ∉ ran
  rank : v.isNoise = true → ran.countP Voice.isNoise = noiseRank v

theorem length_eq_noiseRank {before after : List Voice} {v : Voice}
    (h : before ++ v :: after = [.snare, .hihat, .clap]) : before.length = noiseRank v := by
  have hget : [Voice.snare, .hihat, .clap][before.length]? = some v := by
    rw [← h, List.getElem?_append_right le_rfl, Nat.sub_self, List.getElem?_cons_zero]
  match before.length, hget with
  | 0, hget => cases hget; rfl
  | 1, hget => cases hget; rfl
  | 2, hget => cases hget; rfl

theorem turn_of_append {ran rest : List Voice} {v : Voice} (hnodup : (ran ++ v :: rest).Nodup)
    (hnoise : (ran ++ v :: rest).filter Voice.isNoise = [.snare, .hihat, .clap]) : Turn ran v where
  fresh hmem := (List.nodup_cons.mp (List.nodup_middle.mp hnodup)).1 (List.mem_append_left rest hmem)
  rank hv := by
    rw [List.filter_append, List.filter_cons_of_pos hv] at hnoise
    rw [List.countP_eq_length_filter]
    exact length_eq_noiseRank hnoise

/-! ### One more voice -/

section
variable (c : Cfg) (s : State) {ran : List Voice}

theorem partway_append_kick :
    partway c s (ran ++ [.kick]) = { partway c s ran with kick := kickAfter c s } := by
  simp [partway, Voice.isNoise]

theorem kickSample_partway (h : Turn ran .kick) :
    kickSample c (partway c s ran) = (partway c s (ran ++ [.kick]), kickValue c s) := by
  have hown : (partway c s ran).kick = s.kick := if_neg h.fresh
  rw [kickSample_eq, partway_append_kick, kickAfter, kickValue, hown]
  rfl

theorem partway_append_tom :
    partway c s (ran ++ [.tom]) = { partway c s ran with tom := tomAfter c s } := by
  simp [partway, Voice.isNoise]

theorem tomSample_partway (h : Turn ran .tom) :
    tomSample c (partway c s ran) = (partway c s (ran ++ [.tom]), tomValue c s) := by
  have hown : (partway c s ran).tom = s.tom := if_neg h.fresh
  rw [tomSample_eq, partway_append_tom, tomAfter, tomValue, hown]
  rfl

theorem partway_append_cowbell :
    partway c s (ran ++ [.cowbell]) = { partway c s ran with cowbell := cowbellAfter c s } := by
  simp [partway, Voice.isNoise]

theorem cowbellSample_partway (h : Turn ran .cowbell) :
    cowbellSample c (partway c s ran) = (partway c s (ran ++ [.cowbell]), cowbellValue c s) := by
  have hown : (partway c s ran).cowbell = s.cowbell := if_neg h.fresh
  rw [cowbellSample_eq, partway_append_cowbell, cowbellAfter, cowbellValue, hown]
  rfl

theorem partway_append_snare (h : Turn ran .snare) :
    partway c s (ran ++ [.snare]) =
      { partway c s ran with lfsr := lfsrAfterSnare c s, snare := snareAfter c s } := by
  simp [partway, h.rank rfl, noiseRank, lfsrAfterNoise, Voice.isNoise]

theorem snareSample_partway (h : Turn ran .snare) :
    snareSample c (partway c s ran) = (partway c s (ran ++ [.snare]), snareValue c s) := by
  have hown : (partway c s ran).snare = s.snare := if_neg h.fresh
  have hlfsr : (partway c s ran).lfsr = s.lfsr := congrArg (lfsrAfterNoise c s) (h.rank rfl)
  rw [partway_append_snare c s h]
  apply Prod.ext
  · rw [snareSample_state, lfsrAfterSnare, snareAfter, hown, hlfsr]
    rfl
  · rw [snareSample_value, snareValue, hown, hlfsr]
    rfl

theorem partway_append_hihat (h : Turn ran .hihat) :
    partway c s (ran ++ [.hihat]) =
      { partway c s ran with lfsr := lfsrAfterHihat c s, hihat := hihatAfter c s } := by
  simp [partway, h.rank rfl, noiseRank, lfsrAfterNoise, Voice.isNoise]

theorem hihatSample_partway (h : Turn ran .hihat) :
    hihatSample c (partway c s ran) = (partway c s (ran ++ [.hihat]), hihatValue c s) := by
  have hown : (partway c s ran).hihat = s.hihat := if_neg h.fresh
  have hlfsr : (partway c s ran).lfsr = lfsrAfterSnare c s := congrArg (lfsrAfterNoise c s) (h.rank rfl)
  rw [partway_append_hihat c s h]
  apply Prod.ext
  · rw [hihatSample_state, hown, hlfsr]
    rfl
  · rw [hihatSample_value, hown, hlfsr]
    rfl

theorem partway_append_clap (h : Turn ran .clap) :
    partway c s (ran ++ [.clap]) =
      { partway c s ran with lfsr := lfsrAfterClap c s, clap := clapAfter c s } := by
  simp [partway, h.rank rfl, noiseRank, lfsrAfterNoise, Voice.isNoise]

theorem clapSample_partway (h : Turn ran .clap) :
    clapSample c (partway c s ran) = (partway c s (ran ++ [.clap]), clapValue c s) := by
  have hown : (partway c s ran).clap = s.clap := if_neg h.fresh
  have hlfsr : (partway c s ran).lfsr = lfsrAfterHihat c s := congrArg (lfsrAfterNoise c s) (h.rank rfl)
  rw [partway_append_clap c s h]
  apply Prod.ext
  · rw [clapSample_state, hown, hlfsr]
    rfl
  · rw [clapSample_value, hown, hlfsr]
    rfl

/-- A voice in its turn does what it does in the fixed order. -/
theorem sampleOf_partway {v : Voice} (h : Turn ran v) :
    sampleOf c v (partway c s ran) = (partway c s (ran ++ [v]), (runVoices c s).contribution v) := by
  cases v with
  | kick => exact (kickSample_partway c s h).trans (congrArg _ (runVoices_c0 c s).symm)
  | snare => exact (snareSample_partway c s h).trans (congrArg _ (runVoices_c1 c s).symm)
  | hihat => exact (hihatSample_partway c s h).trans (congrArg _ (runVoices_c2 c s).symm)
  | clap => exact (clapSample_partway c s h).trans (congrArg _ (runVoices_c3 c s).symm)
  | tom => exact (tomSample_partway c s h).trans (congrArg _ (runVoices_c4 c s).symm)
  | cowbell => exact (cowbellSample_partway c s h).trans (congrArg _ (runVoices_c5 c s).symm)

/-! ### All of them -/

theorem runOrder_partway {rest : List Voice} (hnodup : (ran ++ rest).Nodup)
    (hnoise : (ran ++ rest).filter Voice.isNoise = [.snare, .hihat, .clap]) :
    runOrder c rest (partway c s ran) =
      (partway c s (ran ++ rest), rest.map (runVoices c s).contribution) := by
  induction rest generalizing ran with
  | nil => rw [List.append_nil, runOrder, List.map_nil]
  | cons v rest ih =>
    have hv := sampleOf_partway c s (turn_of_append hnodup hnoise)
    rw [List.append_cons] at hnodup hnoise
    simp only [runOrder, hv, ih hnodup hnoise, List.append_cons ran v rest, List.map_cons]

end

theorem mem_of_perm_inOrder {order : List Voice} (h : order.Perm Voice.inOrder) (v : Voice) : v ∈ order := by
  rw [h.mem_iff]
  cases v <;> decide

theorem runOrder_eq_runVoices (c : Cfg) (s : State) {order : List Voice} (hperm : order.Perm Voice.inOrder)
    (hnoise : order.filter Voice.isNoise = [.snare, .hihat, .clap]) :
    runOrder c order s = ((runVoices c s).state, order.map (runVoices c s).contribution) := by
  have hnodup : order.Nodup := hperm.nodup_iff.mpr (by decide)
  have hcount : order.countP Voice.isNoise = 3 := by rw [List.countP_eq_length_filter, hnoise]; rfl
  calc runOrder c order s
      = runOrder c order (partway c s []) := rfl
    _ = (partway c s order, order.map (runVoices c s).contribution) :=
        runOrder_partway c s hnodup hnoise
    _ = ((runVoices c s).state, order.map (runVoices c s).contribution) := by
        rw [partway_eq_runVoices c s (mem_of_perm_inOrder hperm) hcount]

/-- Settles O47: by induction over the order, each voice runs in a state that has its own registers as before the tick
and `LFSR` as in the fixed order. With the Hi-hat before the Snare its first sample is 56 in place of 28
(spec/95_test_vectors.md P2). -/
theorem onlyTheNoiseVoicesOrderMatters : Obligations.OnlyTheNoiseVoicesOrderMatters := by
  refine ⟨fun c s order => runOrder_eq_runVoices c s, ?shows⟩
  case shows =>
    exact ⟨trigHhc cfgRef 0xFFFF (trigSnare cfgRef 0x8000 State.reset),
      [.kick, .hihat, .snare, .clap, .tom, .cowbell], by decide, by decide⟩

end Sys2Proof.Proofs
end

section
/-! The operations the commands and the voices share, in the integers the statements about single commands and sample
micro-operations are written in (spec/41_mixer_tick.md R91 to R95; spec/48_commands.md R131). -/

namespace Sys2Proof.Proofs

open Sys2Proof Sys2Proof.Machine Sys2Proof.Laws

/-! ### A command's word and a trigger's volume -/

/-- The data field fills the low bits, which the other two fields leave 0. -/
theorem assemble_eq_or (op sel : BitVec 4) (data : Word) :
    assemble op sel data = assemble op sel 0 ||| data.setWidth 24 := by
  have hdata : (data.setWidth 24).toNat = data.toNat := BitVec.toNat_setWidth_of_le (by decide)
  apply BitVec.eq_of_toNat_eq
  rw [BitVec.toNat_or, hdata, assemble_toNat, assemble_toNat, Nat.mul_comm _ 65536]
  exact Nat.two_pow_add_eq_or_of_lt data.isLt _

theorem scaleVol_eq_u16 (v0 amp : Word) : scaleVol v0 amp = u16 (v0.toNat * (amp.toNat + 1) / 65536) :=
  congrArg u16 (Nat.shiftRight_eq_div_pow _ 16)

/-! ### The gate, the decay and the sweep -/

theorem eq_u16_of_toNat_eq {w : Word} {n : Nat} (h : w.toNat = n) : w = u16 n :=
  BitVec.eq_of_toNat_eq ((Nat.mod_eq_of_lt w.isLt).symm.trans (congrArg (· % 2 ^ 16) h))

theorem decide_eq_zero_toNat (w : Word) : decide (w = 0) = decide (w.toNat = 0) :=
  decide_eq_decide.mpr BitVec.toNat_inj.symm

theorem decayMask_eq_u8 (idx : BitVec 2) : decayMask idx = u8 (2 ^ (idx.toNat + 1) - 1) := by
  rw [decayMask, Nat.one_shiftLeft]

theorem gateCount_eq_u8 (cnt : Byte) : gateCount cnt = u8 ((cnt.toNat + 1) % 256) := by
  apply BitVec.eq_of_toNat_eq
  rw [gateCount_toNat, BitVec.toNat_ofNat, Nat.mod_mod]

/-- The shared mask tests the low `DECAY_IDX + 1` bits of the counter (spec/10_state.md R23). -/
theorem gateFires_decayMask (cnt : Byte) (idx : BitVec 2) :
    gateFires cnt (decayMask idx) = decide ((cnt.toNat + 1) % 256 % 2 ^ (idx.toNat + 1) = 0) := by
  have hn : idx.toNat + 1 ≤ 8 := idx.isLt.trans (by decide)
  have hperiod : 2 ^ (idx.toNat + 1) ∣ 256 := pow_dvd_pow 2 hn
  rw [Bool.eq_iff_iff, decayMask_eq_u8, gateFires_mask_iff hn, decide_eq_true_iff, Nat.mod_mod_of_dvd _ hperiod]

theorem decayIf_toNat (fires : Bool) (v : Word) (sh : Fin 16) :
    (decayIf fires v sh).toNat = if fires then v.toNat - max 1 (v.toNat / 2 ^ sh.val) else v.toNat := by
  cases fires with
  | false => rfl
  | true => exact (decay_toNat v sh).trans (congrArg (v.toNat - ·) (decrement_eq v sh))

/-- A sweep whose target is a share of `TONE`. -/
theorem sweep_tone_div_toNat (step tone : Word) (d : Nat) (sh : Fin 16) :
    (sweep step (u16 (tone.toNat / d)) sh).toNat =
      if tone.toNat / d < step.toNat then step.toNat - max 1 (step.toNat / 2 ^ sh.val) else step.toNat := by
  have htarget : (u16 (tone.toNat / d)).toNat = tone.toNat / d :=
    Nat.mod_eq_of_lt ((Nat.div_le_self _ _).trans_lt tone.isLt)
  rw [sweep_toNat, htarget, decrement_eq]

/-! ### The table value at a phase (spec/20_memory.md R44, R45) -/

theorem waveAt_toNat (ph : Word) :
    (waveAt cfgRef ph).toNat = (waveTable.toList.getD (ph.toNat / 256 % 128) 0).toNat := by
  have hread (i : BitVec 7) : waveRead cfgRef i = waveTable.toList.getD i.toNat 0 := by
    rw [List.getD_eq_getElem _ _ i.isLt]
    exact (Vector.getElem_toList i.isLt).symm
  rw [waveAt, hread, waveIndex_toNat]

end Sys2Proof.Proofs
end

section
/-! The Kick: `TRIG.KICK` and `KickSample` (spec/42_kick.md R101, R102). -/

namespace Sys2Proof.Proofs

open Sys2Proof Sys2Proof.Machine Sys2Proof.Laws

/-- Settles O2: the amplitude is the word's data field and scales the initial volume. -/
theorem kickTriggerArmsFromTone : Obligations.KickTriggerArmsFromTone := by
  intro amp s
  refine ⟨assemble_eq_or 1 0 amp, ?_⟩
  rw [exec_eq_performWith, performWith, trigKick, scaleVol_eq_u16]
  rfl

/-! ### The sub-steps of an active Kick -/

section
variable (tone : Word) (mask : Byte) (k : Kick)

theorem kickTick_step_toNat :
    (kickTick cfgRef tone mask k).1.step.toNat =
      if tone.toNat / 20 < k.step.toNat then k.step.toNat - max 1 (k.step.toNat / 128) else k.step.toNat :=
  sweep_tone_div_toNat k.step tone 20 7

theorem kickTick_vol_toNat :
    (kickTick cfgRef tone mask k).1.vol.toNat =
      if gateFires k.cnt mask then k.vol.toNat - max 1 (k.vol.toNat / 128) else k.vol.toNat :=
  decayIf_toNat (gateFires k.cnt mask) k.vol 7

/-- The phase advances by the swept step. -/
theorem kickTick_phase_toNat :
    (kickTick cfgRef tone mask k).1.phase.toNat =
      (k.phase.toNat + (kickTick cfgRef tone mask k).1.step.toNat) % 65536 :=
  advancePhase_toNat k.phase _

/-- The unfiltered sample is read at the advanced phase and scaled by the decayed volume. -/
theorem kickTick_eq_of_active (h : k.act = true) {cur : Nat}
    (hcur : scale8 (waveAt cfgRef (kickTick cfgRef tone mask k).1.phase).toNat
      (kickTick cfgRef tone mask k).1.vol = cur) :
    kickTick cfgRef tone mask k =
      ({ act := !(gateFires k.cnt mask && decide ((kickTick cfgRef tone mask k).1.vol = 0))
         vol := (kickTick cfgRef tone mask k).1.vol
         phase := (kickTick cfgRef tone mask k).1.phase
         step := (kickTick cfgRef tone mask k).1.step
         cnt := gateCount k.cnt
         prev := u8 cur },
       u16 ((cur + k.prev.toNat) / 2)) := by
  subst hcur
  rw [← actAfterGate_true, ← h]
  exact congrArg (Prod.mk _) (congrArg u16 (Nat.shiftRight_eq_div_pow _ 1))

end

theorem kickSample_of_idle {s : State} (h : s.kick.act = false) (c : Cfg) : kickSample c s = (s, 0) := by
  rw [kickSample, h, whileActive_false]

theorem kickSample_of_active {s : State} (h : s.kick.act = true) (c : Cfg) :
    kickSample c s =
      ({ s with kick := (kickTick c s.tone (decayMask s.decayIdx) s.kick).1 },
       (kickTick c s.tone (decayMask s.decayIdx) s.kick).2) := by
  rw [kickSample, h, whileActive_true]

/-- Settles O37: each register of an active Kick after its tick, and its sample, in integers. -/
theorem kickSampleFollowsItsRule : Obligations.KickSampleFollowsItsRule := by
  intro s
  refine ⟨fun hidle => kickSample_of_idle hidle cfgRef, ?active⟩
  case active =>
    intro hact target step cnt fires vol phase cur
    have hfires : gateFires s.kick.cnt (decayMask s.decayIdx) = fires := gateFires_decayMask _ _
    have hstep := kickTick_step_toNat s.tone (decayMask s.decayIdx) s.kick
    have hvol := kickTick_vol_toNat s.tone (decayMask s.decayIdx) s.kick
    have hphase := kickTick_phase_toNat s.tone (decayMask s.decayIdx) s.kick
    rw [hstep] at hphase
    rw [hfires] at hvol
    have hcur : scale8 (waveAt cfgRef (kickTick cfgRef s.tone (decayMask s.decayIdx) s.kick).1.phase).toNat
        (kickTick cfgRef s.tone (decayMask s.decayIdx) s.kick).1.vol = cur := by
      rw [scale8_eq, waveAt_toNat, hphase, hvol]
    rw [kickSample_of_active hact, kickTick_eq_of_active _ _ _ hact hcur, hfires, decide_eq_zero_toNat, hvol,
      eq_u16_of_toNat_eq hvol, eq_u16_of_toNat_eq hphase, eq_u16_of_toNat_eq hstep, gateCount_eq_u8]

end Sys2Proof.Proofs
end

section
/-! The Snare: `TRIG.SNARE` and `SnareSample` (spec/43_snare.md R106, R107). -/

namespace Sys2Proof.Proofs

open Sys2Proof Sys2Proof.Machine Sys2Proof.Laws

/-- Settles O3: one amplitude scales the noise's and the body's initial volume. -/
theorem snareTriggerSetsBothVolumes : Obligations.SnareTriggerSetsBothVolumes := by
  intro amp s
  refine ⟨assemble_eq_or 1 1 amp, ?_⟩
  rw [exec_eq_performWith, performWith, trigSnare, scaleVol_eq_u16, scaleVol_eq_u16]
  rfl

/-- This hardware's noise mask takes the low byte of `LFSR` (spec/40_noise_lfsr.md R83). -/
theorem snareNoiseBits_cfgRef (lfsr : Word) : snareNoiseBits cfgRef lfsr = lfsr.toNat % 256 :=
  Nat.and_two_pow_sub_one_eq_mod lfsr.toNat 8

/-! ### The sub-steps of an active Snare -/

section
variable (tone : Word) (mask : Byte) (lfsr : Word) (v : Snare)

theorem snareTick_nvol_toNat :
    (snareTick cfgRef tone mask lfsr v).1.nvol.toNat =
      if gateFires v.cnt mask then v.nvol.toNat - max 1 (v.nvol.toNat / 128) else v.nvol.toNat :=
  decayIf_toNat (gateFires v.cnt mask) v.nvol 7

theorem snareTick_tvol_toNat :
    (snareTick cfgRef tone mask lfsr v).1.tvol.toNat =
      if gateFires v.cnt mask then v.tvol.toNat - max 1 (v.tvol.toNat / 64) else v.tvol.toNat :=
  decayIf_toNat (gateFires v.cnt mask) v.tvol 6

/-- The phase advances by half of `TONE`. -/
theorem snareTick_phase_toNat :
    (snareTick cfgRef tone mask lfsr v).1.phase.toNat = (v.phase.toNat + tone.toNat / 2) % 65536 := by
  rw [← Nat.shiftRight_eq_div_pow tone.toNat 1]
  exact advancePhase_toNat v.phase (halfTone tone)

/-- The table is read at the advanced phase, the noise from `LFSR` after its step, and each is scaled by its own
decayed volume. -/
theorem snareTick_eq_of_active (h : v.act = true) {nvol tvol phase : Nat}
    (hnvol : (snareTick cfgRef tone mask lfsr v).1.nvol.toNat = nvol)
    (htvol : (snareTick cfgRef tone mask lfsr v).1.tvol.toNat = tvol)
    (hphase : (snareTick cfgRef tone mask lfsr v).1.phase.toNat = phase) :
    snareTick cfgRef tone mask lfsr v =
      ({ act := !(gateFires v.cnt mask && (decide (nvol = 0) && decide (tvol = 0)))
         nvol := u16 nvol
         tvol := u16 tvol
         phase := u16 phase
         cnt := gateCount v.cnt },
       u16 ((waveTable.toList.getD (phase / 256 % 128) 0).toNat * (tvol / 256) / 256 +
         lfsr.toNat % 256 * (nvol / 256) / 256)) := by
  rw [← eq_u16_of_toNat_eq hnvol, ← eq_u16_of_toNat_eq htvol, ← eq_u16_of_toNat_eq hphase, ← hnvol, ← htvol,
    ← hphase, ← decide_eq_zero_toNat, ← decide_eq_zero_toNat, ← waveAt_toNat, ← scale8_eq, ← snareNoiseBits_cfgRef,
    ← scale8_eq, ← actAfterGate_true, ← h]
  rfl

end

theorem snareSample_of_idle {s : State} (h : s.snare.act = false) (c : Cfg) : snareSample c s = (s, 0) := by
  rw [snareSample, h, whileActive_false]

theorem snareSample_of_active {s : State} (h : s.snare.act = true) (c : Cfg) :
    snareSample c s =
      ({ s with
        lfsr := lfsrNext c s.lfsr
        snare := (snareTick c s.tone (decayMask s.decayIdx) (lfsrNext c s.lfsr) s.snare).1 },
       (snareTick c s.tone (decayMask s.decayIdx) (lfsrNext c s.lfsr) s.snare).2) := by
  rw [snareSample, h, whileActive_true]

/-- Settles O38: the sub-steps of an active Snare after its step of `LFSR`, both volumes on one gate, in integers. -/
theorem snareSampleFollowsItsRule : Obligations.SnareSampleFollowsItsRule := by
  intro s
  refine ⟨fun hidle => snareSample_of_idle hidle cfgRef, ?active⟩
  case active =>
    intro hact l cnt fires nvol tvol phase tonal noise
    have hfires : gateFires s.snare.cnt (decayMask s.decayIdx) = fires := gateFires_decayMask _ _
    have hnvol := snareTick_nvol_toNat s.tone (decayMask s.decayIdx) l s.snare
    have htvol := snareTick_tvol_toNat s.tone (decayMask s.decayIdx) l s.snare
    have hphase := snareTick_phase_toNat s.tone (decayMask s.decayIdx) l s.snare
    rw [hfires] at hnvol htvol
    rw [snareSample_of_active hact, snareTick_eq_of_active _ _ _ _ hact hnvol htvol hphase, hfires, gateCount_eq_u8]

end Sys2Proof.Proofs
end

section
/-! The Hi-hat: `TRIG.HHC`, `TRIG.HHO` and `HihatSample` (spec/44_hihat.md R110 to R112). -/

namespace Sys2Proof.Proofs

open Sys2Proof Sys2Proof.Machine Sys2Proof.Laws

/-! ### The two triggers -/

/-- What both triggers write on this hardware, at the speed that tells them apart. -/
theorem trigHihat_cfgRef (speed : Byte) (amp : Word) (s : State) :
    trigHihat cfgRef speed amp s = { s with hihat :=
      { act := true
        vol := u16 (32768 * (amp.toNat + 1) / 65536)
        ph1 := 0
        ph2 := 0
        speed := speed
        cnt := s.hihat.cnt } } := by
  rw [trigHihat, scaleVol_eq_u16]
  rfl

/-- Settles O4: the variant is bit 3 of the selector, and selects the speed of one shared write. -/
theorem hihatTriggersDifferInSpeedOnly : Obligations.HihatTriggersDifferInSpeedOnly := by
  intro amp s
  refine ⟨assemble_eq_or 1 2 amp, assemble_eq_or 1 10 amp, ?closed, ?opened⟩
  case closed => exact congrArg Host.Outcome.next (trigHihat_cfgRef cfgRef.hhSpeedClosed amp s)
  case opened => exact congrArg Host.Outcome.next (trigHihat_cfgRef cfgRef.hhSpeedOpen amp s)

/-! ### The gate mask, the metallic term and the noise term -/

theorem decayMask_toNat (idx : BitVec 2) : (decayMask idx).toNat = 2 ^ (idx.toNat + 1) - 1 := by
  revert idx; decide

/-- `H_SPEED` adds bits to the ones the shared mask tests. -/
theorem gateFires_or_decayMask (cnt speed : Byte) (idx : BitVec 2) :
    gateFires cnt (speed ||| decayMask idx) =
      decide ((cnt.toNat + 1) % 256 &&& (speed.toNat ||| (2 ^ (idx.toNat + 1) - 1)) = 0) := by
  rw [← gateCount_toNat, ← decayMask_toNat, ← BitVec.toNat_or, ← BitVec.toNat_and]
  exact decide_eq_decide.mpr BitVec.toNat_inj.symm

/-- Bit 15 splits the phases into two halves. -/
theorem getLsbD_fifteen_eq_decide (ph : Word) : ph.getLsbD 15 = decide (32768 ≤ ph.toNat) :=
  (BitVec.msb_eq_getLsbD_last ph).symm.trans (BitVec.msb_eq_decide ph)

/-- The term sounds while the two phases are in different halves. -/
theorem metallic_eq (ph1 ph2 : Word) :
    metallic ph1 ph2 = if decide (32768 ≤ ph1.toNat) = decide (32768 ≤ ph2.toNat) then 0 else 64 := by
  rw [metallic, square, square, ← getLsbD_fifteen_eq_decide, ← getLsbD_fifteen_eq_decide]
  cases ph1.getLsbD 15 <;> cases ph2.getLsbD 15 <;> rfl

theorem hihatNoiseBits_eq (lfsr : Word) : hihatNoiseBits lfsr = lfsr.toNat % 128 :=
  Nat.and_two_pow_sub_one_eq_mod lfsr.toNat 7

/-! ### The sub-steps of an active Hi-hat -/

section
variable (mask : Byte) (lfsr : Word) (v : Hihat)

theorem hihatTick_vol_toNat :
    (hihatTick cfgRef mask lfsr v).1.vol.toNat =
      if gateFires v.cnt (v.speed ||| mask) then v.vol.toNat - max 1 (v.vol.toNat / 64) else v.vol.toNat :=
  decayIf_toNat (gateFires v.cnt (v.speed ||| mask)) v.vol 6

theorem hihatTick_ph1_toNat :
    (hihatTick cfgRef mask lfsr v).1.ph1.toNat = (v.ph1.toNat + 17152) % 65536 :=
  advancePhase_toNat v.ph1 17152

theorem hihatTick_ph2_toNat :
    (hihatTick cfgRef mask lfsr v).1.ph2.toNat = (v.ph2.toNat + 26880) % 65536 :=
  advancePhase_toNat v.ph2 26880

/-- The squares are read at the advanced phases, the noise from `LFSR` after its step, and their sum is scaled by
the volume before the decay. -/
theorem hihatTick_eq_of_active (h : v.act = true) {vol ph1 ph2 : Nat}
    (hvol : (hihatTick cfgRef mask lfsr v).1.vol.toNat = vol)
    (hph1 : (hihatTick cfgRef mask lfsr v).1.ph1.toNat = ph1)
    (hph2 : (hihatTick cfgRef mask lfsr v).1.ph2.toNat = ph2) :
    hihatTick cfgRef mask lfsr v =
      ({ act := !(gateFires v.cnt (v.speed ||| mask) && decide (vol = 0))
         vol := u16 vol
         ph1 := u16 ph1
         ph2 := u16 ph2
         speed := v.speed
         cnt := gateCount v.cnt },
       u16 (((if decide (32768 ≤ ph1) = decide (32768 ≤ ph2) then 0 else 64) + lfsr.toNat % 128) *
         (v.vol.toNat / 256) / 256)) := by
  rw [← eq_u16_of_toNat_eq hvol, ← eq_u16_of_toNat_eq hph1, ← eq_u16_of_toNat_eq hph2, ← hvol, ← hph1, ← hph2,
    ← decide_eq_zero_toNat, ← metallic_eq, ← hihatNoiseBits_eq, ← scale8_eq, ← actAfterGate_true, ← h]
  rfl

end

theorem hihatSample_of_idle {s : State} (h : s.hihat.act = false) (c : Cfg) : hihatSample c s = (s, 0) := by
  rw [hihatSample, h, whileActive_false]

theorem hihatSample_of_active {s : State} (h : s.hihat.act = true) (c : Cfg) :
    hihatSample c s =
      ({ s with
        lfsr := lfsrNext c s.lfsr
        hihat := (hihatTick c (decayMask s.decayIdx) (lfsrNext c s.lfsr) s.hihat).1 },
       (hihatTick c (decayMask s.decayIdx) (lfsrNext c s.lfsr) s.hihat).2) := by
  rw [hihatSample, h, whileActive_true]

/-- Settles O39: the sub-steps of an active Hi-hat after its step of `LFSR`, the output before the decay, in
integers. -/
theorem hihatSampleFollowsItsRule : Obligations.HihatSampleFollowsItsRule := by
  intro s
  refine ⟨fun hidle => hihatSample_of_idle hidle cfgRef, ?active⟩
  case active =>
    intro hact l ph1 ph2 metal cnt fires vol
    have hfires : gateFires s.hihat.cnt (s.hihat.speed ||| decayMask s.decayIdx) = fires :=
      gateFires_or_decayMask _ _ _
    have hvol := hihatTick_vol_toNat (decayMask s.decayIdx) l s.hihat
    have hph1 := hihatTick_ph1_toNat (decayMask s.decayIdx) l s.hihat
    have hph2 := hihatTick_ph2_toNat (decayMask s.decayIdx) l s.hihat
    rw [hfires] at hvol
    rw [hihatSample_of_active hact, hihatTick_eq_of_active _ _ _ hact hvol hph1 hph2, hfires, gateCount_eq_u8]

end Sys2Proof.Proofs
end

section
/-! The Clap: `TRIG.CLAP`, `ClapSample` and the 606 ticks of its bursts (spec/45_clap.md R115 to R118). -/

namespace Sys2Proof.Proofs

open Sys2Proof Sys2Proof.Machine Sys2Proof.Laws

/-- Settles O5: the same write in every phase, so a trigger during a note starts the three bursts again. -/
theorem clapTriggerStartsThreeBursts : Obligations.ClapTriggerStartsThreeBursts := by
  intro amp s
  refine ⟨assemble_eq_or 1 3 amp, ?_⟩
  rw [exec_eq_performWith, performWith, trigClap, scaleVol_eq_u16]
  rfl

/-! ### The sub-steps of an active Clap -/

theorem clapNoise_eq (bit : Bool) (vol : Word) :
    clapNoise bit vol = if bit then u16 (vol.toNat / 256) else 0 := by
  rw [clapNoise, Nat.shiftRight_eq_div_pow]

section
variable (mask : Byte) (bit : Bool) {v : Clap}

/-- Burst: gated noise while the timer is below `CL_ON`. -/
theorem clapTick_of_burst (hstut : v.stut ≠ 0) (hon : v.timer.toNat < 60) :
    clapTick cfgRef mask bit v =
      ({ v with timer := u8 (v.timer.toNat + 1) }, clapNoise bit v.vol) := by
  rw [clapTick_of_stut_ne hstut]
  exact if_pos hon

/-- Gap: silence until the timer is above `CL_PERIOD`. -/
theorem clapTick_of_gap (hstut : v.stut ≠ 0) (hoff : 60 ≤ v.timer.toNat) (hperiod : v.timer.toNat ≤ 200) :
    clapTick cfgRef mask bit v = ({ v with timer := u8 (v.timer.toNat + 1) }, 0) := by
  rw [clapTick_of_stut_ne hstut]
  exact (if_neg hoff.not_gt).trans (if_neg hperiod.not_gt)

/-- The silent tick that ends a stutter period. -/
theorem clapTick_of_period_end (hstut : v.stut ≠ 0) (hperiod : 200 < v.timer.toNat) :
    clapTick cfgRef mask bit v = ({ v with stut := v.stut - 1, timer := 0 }, 0) := by
  have hoff : ¬ v.timer.toNat < 60 := by omega
  rw [clapTick_of_stut_ne hstut]
  exact (if_neg hoff).trans (if_pos hperiod)

/-- The noise of a Sustaining tick has the volume after its decay. -/
theorem clapTick_of_sustain (hstut : v.stut = 0) (hact : v.act = true) {vol : Nat}
    (hvol : (decayIf (gateFires v.cnt mask) v.vol cfgRef.clShift).toNat = vol) :
    clapTick cfgRef mask bit v =
      ({ v with
         act := !(gateFires v.cnt mask && decide (vol = 0))
         vol := u16 vol
         cnt := gateCount v.cnt },
       if bit then u16 (vol / 256) else 0) := by
  rw [clapTick_of_stut_eq hstut, ← eq_u16_of_toNat_eq hvol, ← hvol, ← decide_eq_zero_toNat, ← clapNoise_eq,
    ← actAfterGate_true, ← hact]
  rfl

end

theorem clapSample_of_idle {s : State} (h : s.clap.act = false) (c : Cfg) : clapSample c s = (s, 0) := by
  rw [clapSample, h, whileActive_false]

theorem clapSample_of_active {s : State} (h : s.clap.act = true) (c : Cfg) :
    clapSample c s =
      ({ s with
        lfsr := lfsrNext c s.lfsr
        clap := (clapTick c (decayMask s.decayIdx) (lfsrBit s.lfsr) s.clap).1 },
       (clapTick c (decayMask s.decayIdx) (lfsrBit s.lfsr) s.clap).2) := by
  rw [clapSample, h, whileActive_true]

theorem stutter_sub_one {stut : BitVec 2} (h : stut ≠ 0) : stut - 1 = BitVec.ofNat 2 (stut.toNat - 1) := by
  revert stut; decide

/-- Settles O40: Idle, the three cases of Bursting by the timer, and Sustaining. -/
theorem clapSampleFollowsItsRule : Obligations.ClapSampleFollowsItsRule := by
  intro s
  refine ⟨fun hidle => clapSample_of_idle hidle cfgRef, ?active⟩
  case active =>
    intro hact l bit t
    have hbit : lfsrBit s.lfsr = bit := lfsrBit_eq_decide s.lfsr
    rw [clapSample_of_active hact, hbit]
    refine ⟨?burst, ?gap, ?periodEnd, ?sustain⟩
    case burst =>
      intro hstut hon
      rw [clapTick_of_burst _ _ hstut hon, clapNoise_eq]
    case gap =>
      intro hstut hoff hperiod
      rw [clapTick_of_gap _ _ hstut hoff hperiod]
    case periodEnd =>
      intro hstut hperiod
      rw [clapTick_of_period_end _ _ hstut hperiod, stutter_sub_one hstut]
    case sustain =>
      intro hstut cnt fires vol
      have hfires : gateFires s.clap.cnt (decayMask s.decayIdx) = fires := gateFires_decayMask _ _
      have hvol := decayIf_toNat (gateFires s.clap.cnt (decayMask s.decayIdx)) s.clap.vol cfgRef.clShift
      rw [clapTick_of_sustain _ _ hstut hact hvol, hfires, gateCount_eq_u8]
      rfl

/-! ### The bursts from a trigger on -/

/-- The Clap `n` ticks after a trigger that left `v`, as long as it bursts. -/
def burstAt (v : Clap) (n : Nat) : Clap :=
  { v with stut := BitVec.ofNat 2 (3 - n / 202), timer := u8 (n % 202) }

section
variable (v : Clap) {n : Nat}

theorem burstAt_zero (hstut : v.stut = 3) (htimer : v.timer = 0) : burstAt v 0 = v := by
  calc
    burstAt v 0 = { v with stut := 3, timer := 0 } := rfl
    _ = v := by rw [← hstut, ← htimer]

theorem burstAt_timer_toNat : (burstAt v n).timer.toNat = n % 202 := by
  have hlt : n % 202 < 256 := (Nat.mod_lt n (by decide)).trans (by decide)
  exact Nat.mod_eq_of_lt hlt

/-- Stutter periods are left until the end of the third. -/
theorem burstAt_stut_toNat : (burstAt v n).stut.toNat = 3 - n / 202 :=
  Nat.mod_eq_of_lt (by omega)

theorem burstAt_stut_ne_zero (h : n < 606) : (burstAt v n).stut ≠ 0 := by
  have hpos : 3 - n / 202 ≠ 0 := by omega
  intro hzero
  exact hpos ((burstAt_stut_toNat v).symm.trans (congrArg BitVec.toNat hzero))

/-- Within a period only the timer moves. -/
theorem burstAt_succ_within (h : n % 202 < 201) :
    burstAt v (n + 1) = { burstAt v n with timer := u8 ((burstAt v n).timer.toNat + 1) } := by
  have hperiod : (n + 1) / 202 = n / 202 := by omega
  have htimer : (n + 1) % 202 = n % 202 + 1 := by omega
  rw [burstAt_timer_toNat, burstAt, hperiod, htimer]
  rfl

/-- The last tick of a period ends it. -/
theorem burstAt_succ_period_end (hlast : 200 < n % 202) (h : n < 606) :
    burstAt v (n + 1) = { burstAt v n with stut := (burstAt v n).stut - 1, timer := 0 } := by
  have hperiod : 3 - (n + 1) / 202 = 3 - n / 202 - 1 := by omega
  have htimer : (n + 1) % 202 = 0 := by omega
  rw [stutter_sub_one (burstAt_stut_ne_zero v h), burstAt_stut_toNat, burstAt, hperiod, htimer]
  rfl

/-- One tick further into the bursts, whatever the decay: the timer alone says whether the noise is heard. -/
theorem clapTick_burstAt (mask : Byte) (bit : Bool) (h : n < 606) :
    clapTick cfgRef mask bit (burstAt v n) =
      (burstAt v (n + 1), if n % 202 < 60 then clapNoise bit v.vol else 0) := by
  have hstut := burstAt_stut_ne_zero v h
  have htimer : (burstAt v n).timer.toNat = n % 202 := burstAt_timer_toNat v
  by_cases hon : n % 202 < 60
  · rw [clapTick_of_burst mask bit hstut (by omega), burstAt_succ_within v (by omega), if_pos hon]
    rfl
  by_cases hlast : 200 < n % 202
  · rw [clapTick_of_period_end mask bit hstut (by omega), burstAt_succ_period_end v hlast h, if_neg hon]
  · rw [clapTick_of_gap mask bit hstut (by omega) (by omega), burstAt_succ_within v (by omega), if_neg hon]

end

theorem ticks_succ (c : Cfg) (n : Nat) (s : State) : ticks c (n + 1) s = tick c (ticks c n s) := by
  induction n generalizing s with
  | zero => rfl
  | succ n ih => exact ih (tick c s)

section
variable {s : State} {n : Nat} (hact : s.clap.act = true) (hstut : s.clap.stut = 3) (htimer : s.clap.timer = 0)
include hact hstut htimer

theorem ticks_clap_eq_burstAt (h : n ≤ 606) : (ticks cfgRef n s).clap = burstAt s.clap n := by
  induction n with
  | zero => exact (burstAt_zero s.clap hstut htimer).symm
  | succ n ih =>
    have hclap := ih (Nat.le_of_succ_le h)
    have hstill : (ticks cfgRef n s).clap.act = true := (congrArg Clap.act hclap).trans hact
    rw [ticks_succ, tick_clap, clapAfter, if_pos hstill, hclap, clapTick_burstAt s.clap _ _ h]

theorem ticks_clap_contribution (h : n < 606) :
    (runVoices cfgRef (ticks cfgRef n s)).c3 =
      if n % 202 < 60 then clapNoise (lfsrBit (lfsrAfterHihat cfgRef (ticks cfgRef n s))) s.clap.vol else 0 := by
  have hclap := ticks_clap_eq_burstAt hact hstut htimer h.le
  have hstill : (ticks cfgRef n s).clap.act = true := (congrArg Clap.act hclap).trans hact
  rw [runVoices_c3, clapValue, if_pos hstill, hclap, clapTick_burstAt s.clap _ _ h]

end

/-- The Clap's step of `LFSR` comes after the Snare's and the Hi-hat's. -/
theorem lfsr_after_snare_and_hihat (c : Cfg) (s : State) :
    (hihatSample c (snareSample c s).1).1.lfsr = lfsrAfterHihat c s := by
  rw [hihatSample_state, snareSample_state]
  rfl

/-- Settles O48: the timeline of the bursts is `burstAt`, and each tick's contribution follows from its timer. -/
theorem clapBurstsForSixHundredSixTicks : Obligations.ClapBurstsForSixHundredSixTicks := by
  intro s n hact hstut htimer hn
  refine ⟨ticks_clap_eq_burstAt hact hstut htimer hn, ?silent, ?noisy⟩
  case silent =>
    intro hlt hoff
    rw [ticks_clap_contribution hact hstut htimer hlt, if_neg hoff.not_gt]
  case noisy =>
    intro hlt hon
    rw [ticks_clap_contribution hact hstut htimer hlt, if_pos hon, clapNoise_eq, lfsr_after_snare_and_hihat]

end Sys2Proof.Proofs
end

section
/-! The Tom: `TRIG.TOM` and `TomSample` (spec/46_tom.md R120, R121). -/

namespace Sys2Proof.Proofs

open Sys2Proof Sys2Proof.Machine Sys2Proof.Laws

/-- Settles O6: the step is `TONE` and the offset, added in the register's 16 bits. -/
theorem tomTriggerStepIsToneAbove : Obligations.TomTriggerStepIsToneAbove := by
  intro amp s
  have hstep : u16 (s.tone.toNat + 200) = u16 ((s.tone.toNat + 200) % 65536) :=
    eq_u16_of_toNat_eq (BitVec.toNat_ofNat _ 16)
  refine ⟨assemble_eq_or 1 4 amp, ?_⟩
  rw [exec_eq_performWith, performWith, trigTom, scaleVol_eq_u16, ← hstep]
  rfl

/-! ### The sub-steps of an active Tom -/

section
variable (tone : Word) (mask : Byte) (v : Tom)

theorem tomTick_step_toNat :
    (tomTick cfgRef tone mask v).1.step.toNat =
      if tone.toNat / 10 < v.step.toNat then v.step.toNat - max 1 (v.step.toNat / 128) else v.step.toNat :=
  sweep_tone_div_toNat v.step tone 10 7

theorem tomTick_vol_toNat :
    (tomTick cfgRef tone mask v).1.vol.toNat =
      if gateFires v.cnt mask then v.vol.toNat - max 1 (v.vol.toNat / 64) else v.vol.toNat :=
  decayIf_toNat (gateFires v.cnt mask) v.vol 6

/-- The phase advances by the swept step. -/
theorem tomTick_phase_toNat :
    (tomTick cfgRef tone mask v).1.phase.toNat =
      (v.phase.toNat + (tomTick cfgRef tone mask v).1.step.toNat) % 65536 :=
  advancePhase_toNat v.phase _

/-- The table is read at the advanced phase and scaled by the decayed volume, with no filter after it. -/
theorem tomTick_eq_of_active (h : v.act = true) {step vol phase : Nat}
    (hstep : (tomTick cfgRef tone mask v).1.step.toNat = step)
    (hvol : (tomTick cfgRef tone mask v).1.vol.toNat = vol)
    (hphase : (tomTick cfgRef tone mask v).1.phase.toNat = phase) :
    tomTick cfgRef tone mask v =
      ({ act := !(gateFires v.cnt mask && decide (vol = 0))
         vol := u16 vol
         phase := u16 phase
         step := u16 step
         cnt := gateCount v.cnt },
       u16 ((waveTable.toList.getD (phase / 256 % 128) 0).toNat * (vol / 256) / 256)) := by
  rw [← eq_u16_of_toNat_eq hstep, ← eq_u16_of_toNat_eq hvol, ← eq_u16_of_toNat_eq hphase, ← hvol, ← hphase,
    ← decide_eq_zero_toNat, ← waveAt_toNat, ← scale8_eq, ← actAfterGate_true, ← h]
  rfl

end

theorem tomSample_of_idle {s : State} (h : s.tom.act = false) (c : Cfg) : tomSample c s = (s, 0) := by
  rw [tomSample, h, whileActive_false]

theorem tomSample_of_active {s : State} (h : s.tom.act = true) (c : Cfg) :
    tomSample c s =
      ({ s with tom := (tomTick c s.tone (decayMask s.decayIdx) s.tom).1 },
       (tomTick c s.tone (decayMask s.decayIdx) s.tom).2) := by
  rw [tomSample, h, whileActive_true]

/-- Settles O41: each register of an active Tom after its tick, and its sample, in integers. -/
theorem tomSampleFollowsItsRule : Obligations.TomSampleFollowsItsRule := by
  intro s
  refine ⟨fun hidle => tomSample_of_idle hidle cfgRef, ?active⟩
  case active =>
    intro hact target step cnt fires vol phase
    have hfires : gateFires s.tom.cnt (decayMask s.decayIdx) = fires := gateFires_decayMask _ _
    have hstep := tomTick_step_toNat s.tone (decayMask s.decayIdx) s.tom
    have hvol := tomTick_vol_toNat s.tone (decayMask s.decayIdx) s.tom
    have hphase := tomTick_phase_toNat s.tone (decayMask s.decayIdx) s.tom
    rw [hstep] at hphase
    rw [hfires] at hvol
    rw [tomSample_of_active hact, tomTick_eq_of_active _ _ _ hact hstep hvol hphase, hfires, gateCount_eq_u8]

end Sys2Proof.Proofs
end

section
/-! The Cowbell: `TRIG.COWBELL` and `CowbellSample` (spec/47_cowbell.md R124, R125). -/

namespace Sys2Proof.Proofs

open Sys2Proof Sys2Proof.Machine Sys2Proof.Laws

/-- Settles O7: the amplitude scales the initial volume, and the two phases start a quarter turn apart. -/
theorem cowbellTriggerSetsDistinctPhases : Obligations.CowbellTriggerSetsDistinctPhases := by
  intro amp s
  refine ⟨assemble_eq_or 1 5 amp, ?_⟩
  rw [exec_eq_performWith, performWith, trigCowbell, scaleVol_eq_u16]
  rfl

/-! ### The sub-steps of an active Cowbell -/

/-- The step of the first oscillator on this hardware. -/
theorem cowbellBase_toNat (tone : Word) : (cowbellBase cfgRef tone).toNat = (500 + tone.toNat / 2) % 65536 := by
  rw [← Nat.shiftRight_eq_div_pow tone.toNat 1]
  exact BitVec.toNat_ofNat _ 16

section
variable (tone : Word) (mask : Byte) (v : Cowbell)

theorem cowbellTick_vol_toNat :
    (cowbellTick cfgRef tone mask v).1.vol.toNat =
      if gateFires v.cnt mask then v.vol.toNat - max 1 (v.vol.toNat / 128) else v.vol.toNat :=
  decayIf_toNat (gateFires v.cnt mask) v.vol 7

theorem cowbellTick_ph1_toNat :
    (cowbellTick cfgRef tone mask v).1.ph1.toNat = (v.ph1.toNat + (500 + tone.toNat / 2) % 65536) % 65536 := by
  rw [← cowbellBase_toNat]
  exact advancePhase_toNat v.ph1 _

/-- The second oscillator runs at one and a half times the first one's step. -/
theorem cowbellTick_ph2_toNat :
    (cowbellTick cfgRef tone mask v).1.ph2.toNat =
      (v.ph2.toNat + (500 + tone.toNat / 2) % 65536 + (500 + tone.toNat / 2) % 65536 / 2) % 65536 := by
  rw [← cowbellBase_toNat, Nat.add_assoc, ← Nat.shiftRight_eq_div_pow _ 1]
  exact advancePhase_toNat v.ph2 _

/-- The table is read at the two advanced phases and the average is scaled by the decayed volume. -/
theorem cowbellTick_eq_of_active (h : v.act = true) {vol ph1 ph2 : Nat}
    (hvol : (cowbellTick cfgRef tone mask v).1.vol.toNat = vol)
    (hph1 : (cowbellTick cfgRef tone mask v).1.ph1.toNat = ph1)
    (hph2 : (cowbellTick cfgRef tone mask v).1.ph2.toNat = ph2) :
    cowbellTick cfgRef tone mask v =
      ({ act := !(gateFires v.cnt mask && decide (vol = 0))
         vol := u16 vol
         ph1 := u16 ph1
         ph2 := u16 ph2
         cnt := gateCount v.cnt },
       u16 (((waveTable.toList.getD (ph1 / 256 % 128) 0).toNat + (waveTable.toList.getD (ph2 / 256 % 128) 0).toNat) / 2
         * (vol / 256) / 256)) := by
  rw [← eq_u16_of_toNat_eq hvol, ← eq_u16_of_toNat_eq hph1, ← eq_u16_of_toNat_eq hph2, ← hvol, ← hph1, ← hph2,
    ← decide_eq_zero_toNat, ← waveAt_toNat, ← waveAt_toNat, ← Nat.shiftRight_eq_div_pow _ 1, ← scale8_eq,
    ← actAfterGate_true, ← h]
  rfl

end

theorem cowbellSample_of_idle {s : State} (h : s.cowbell.act = false) (c : Cfg) : cowbellSample c s = (s, 0) := by
  rw [cowbellSample, h, whileActive_false]

theorem cowbellSample_of_active {s : State} (h : s.cowbell.act = true) (c : Cfg) :
    cowbellSample c s =
      ({ s with cowbell := (cowbellTick c s.tone (decayMask s.decayIdx) s.cowbell).1 },
       (cowbellTick c s.tone (decayMask s.decayIdx) s.cowbell).2) := by
  rw [cowbellSample, h, whileActive_true]

/-- Settles O42: each register of an active Cowbell after its tick, and its sample, in integers. -/
theorem cowbellSampleFollowsItsRule : Obligations.CowbellSampleFollowsItsRule := by
  intro s
  refine ⟨fun hidle => cowbellSample_of_idle hidle cfgRef, ?active⟩
  case active =>
    intro hact cnt fires vol base ph1 ph2 w1 w2
    have hfires : gateFires s.cowbell.cnt (decayMask s.decayIdx) = fires := gateFires_decayMask _ _
    have hvol := cowbellTick_vol_toNat s.tone (decayMask s.decayIdx) s.cowbell
    have hph1 := cowbellTick_ph1_toNat s.tone (decayMask s.decayIdx) s.cowbell
    have hph2 := cowbellTick_ph2_toNat s.tone (decayMask s.decayIdx) s.cowbell
    rw [hfires] at hvol
    rw [cowbellSample_of_active hact, cowbellTick_eq_of_active _ _ _ hact hvol hph1 hph2, hfires, gateCount_eq_u8]

end Sys2Proof.Proofs
end

section
/-! The commands: `NOP`, the dispatch, the order of two triggers, `ScaleVol` and the two parameter writes
(spec/48_commands.md R127 to R134). -/

namespace Sys2Proof.Proofs

open Sys2Proof Sys2Proof.Machine Sys2Proof.Laws

/-! ### `NOP` (R128) -/

theorem eventWith_nop (c : Cfg) (s : State) : eventWith c (.cmd 0x000000) s = s := rfl

theorem outputStream_cons (c : Cfg) (e : Event) (rest : List Event) (s : State) :
    outputStream c (e :: rest) s = outputStream c [e] s ++ outputStream c rest (eventWith c e s) :=
  outputStream_append c [e] rest s

/-- Settles O1, by induction on the trace: a `NOP` at its head leaves the state and writes no sample. -/
theorem nopChangesNothingAndMayBeDropped : Obligations.NopChangesNothingAndMayBeDropped := by
  refine ⟨rfl, fun _ => rfl, fun c tr s => ?_⟩
  induction tr generalizing s with
  | nil => exact ⟨rfl, rfl⟩
  | cons e rest ih =>
    by_cases he : e = .cmd 0x000000
    · rw [List.filter_cons_of_neg (by simpa using he), he, outputStream, traceWith, eventWith_nop]
      exact ih s
    · obtain ⟨hstream, hstate⟩ := ih (eventWith c e s)
      rw [List.filter_cons_of_pos (by simpa using he), outputStream_cons, hstream, ← outputStream_cons]
      exact ⟨rfl, hstate⟩

/-! ### The branches of the dispatch (R127) -/

/-- A word is its upper byte and its data field. -/
theorem eq_assemble_of_upper {w : CmdWord} {op sel : BitVec 4} (h : w.toNat / 2 ^ 16 = op.toNat * 16 + sel.toNat) :
    w = assemble op sel (u16 w.toNat) := by
  apply BitVec.eq_of_toNat_eq
  rw [assemble_toNat, ← h, BitVec.toNat_ofNat]
  exact (Nat.div_add_mod' _ _).symm

theorem decode_of_upper_one {w : CmdWord} {sel : BitVec 4} (h : w.toNat / 2 ^ 16 = 16 + sel.toNat) :
    decode w = decodeTrigger sel (u16 w.toNat) := by
  conv_lhs => rw [eq_assemble_of_upper (op := 1) h]
  exact decode_assemble_one sel _

theorem decode_of_upper_two {w : CmdWord} {sel : BitVec 4} (h : w.toNat / 2 ^ 16 = 32 + sel.toNat) :
    decode w = decodeParameter sel (u16 w.toNat) := by
  conv_lhs => rw [eq_assemble_of_upper (op := 2) h]
  exact decode_assemble_two sel _

theorem decode_of_setDecay_word {w : CmdWord} (h : w.toNat / 2 ^ 16 = 0x21) (hdata : w.toNat % 2 ^ 16 < 4) :
    decode w = .command (.setDecay (BitVec.ofNat 2 w.toNat)) := by
  have hidx : (u16 w.toNat).extractLsb' 0 2 = BitVec.ofNat 2 w.toNat := by
    apply BitVec.eq_of_toNat_eq
    simp only [BitVec.extractLsb'_toNat, BitVec.toNat_ofNat, Nat.shiftRight_zero]
    omega
  rw [decode_of_upper_two (sel := 1) h, ← hidx]
  exact if_pos hdata

/-- A word that takes none of the command branches is reserved. -/
theorem isReserved_of_no_branch {w : CmdWord} (hzero : w.toNat ≠ 0)
    (htrigger : w.toNat / 2 ^ 16 ∉ [0x10, 0x11, 0x12, 0x13, 0x14, 0x15, 0x1A]) (htone : w.toNat / 2 ^ 16 ≠ 0x20)
    (hdecay : ¬ (w.toNat / 2 ^ 16 = 0x21 ∧ w.toNat % 2 ^ 16 < 4)) : isReserved w = true := by
  rw [← Bool.not_eq_false, isReserved_eq_false_iff]
  simp only [legalWords, Finset.mem_union, Finset.mem_singleton, Finset.mem_Ico]
  simp only [List.mem_cons, List.not_mem_nil, or_false] at htrigger
  omega

/-! ### What no command writes (R127) -/

theorem performWith_pending (c : Cfg) (i : Instr) (s : State) : (performWith c i s).pending = s.pending := by
  cases i <;> rfl

/-- A voice's gate counter and `K_PREV` are kept, and each phase is kept or at its trigger's value. -/
def NotAdvanced : (v : Voice) → VoiceRegs v → VoiceRegs v → Prop
  | .kick, r, r' => r'.cnt = r.cnt ∧ r'.prev = r.prev ∧ (r'.phase = r.phase ∨ r'.phase = 0)
  | .snare, r, r' => r'.cnt = r.cnt ∧ (r'.phase = r.phase ∨ r'.phase = 0)
  | .hihat, r, r' => r'.cnt = r.cnt ∧ (r'.ph1 = r.ph1 ∨ r'.ph1 = 0) ∧ (r'.ph2 = r.ph2 ∨ r'.ph2 = 0)
  | .clap, r, r' => r'.cnt = r.cnt
  | .tom, r, r' => r'.cnt = r.cnt ∧ (r'.phase = r.phase ∨ r'.phase = 0)
  | .cowbell, r, r' => r'.cnt = r.cnt ∧ (r'.ph1 = r.ph1 ∨ r'.ph1 = 0) ∧ (r'.ph2 = r.ph2 ∨ r'.ph2 = 16384)

theorem notAdvanced_refl (v : Voice) (r : VoiceRegs v) : NotAdvanced v r r := by
  cases v with
  | kick => exact ⟨rfl, rfl, .inl rfl⟩
  | snare => exact ⟨rfl, .inl rfl⟩
  | hihat => exact ⟨rfl, .inl rfl, .inl rfl⟩
  | clap => exact rfl
  | tom => exact ⟨rfl, .inl rfl⟩
  | cowbell => exact ⟨rfl, .inl rfl, .inl rfl⟩

/-- A trigger puts its voice's phases at their initial values, which are this hardware's. -/
theorem notAdvanced_trigger {i : Instr} (s : State) {v : Voice} (h : i.voice = some v) :
    NotAdvanced v (regs s v) (regs (performWith cfgRef i s) v) := by
  cases i with
  | nop => cases h
  | setTone => cases h
  | setDecay => cases h
  | trigKick => cases h; exact ⟨rfl, rfl, .inr rfl⟩
  | trigSnare => cases h; exact ⟨rfl, .inr rfl⟩
  | trigHhc => cases h; exact ⟨rfl, .inr rfl, .inr rfl⟩
  | trigHho => cases h; exact ⟨rfl, .inr rfl, .inr rfl⟩
  | trigClap => cases h; exact rfl
  | trigTom => cases h; exact ⟨rfl, .inr rfl⟩
  | trigCowbell => cases h; exact ⟨rfl, .inr rfl, .inr rfl⟩

/-- Everything a sample would write is as it was. -/
structure MakesNoSample (s t : State) : Prop where
  out : t.out = s.out
  lfsr : t.lfsr = s.lfsr
  outValid : t.outValid = s.outValid
  pending : t.pending = s.pending
  voice (v : Voice) : NotAdvanced v (regs s v) (regs t v)

theorem makesNoSample_performWith (i : Instr) (s : State) : MakesNoSample s (performWith cfgRef i s) where
  out := out_performWith cfgRef i s
  lfsr := performWith_lfsr cfgRef i s
  outValid := (performWith_out cfgRef i s).2
  pending := performWith_pending cfgRef i s
  voice v := by
    by_cases hv : i.voice = some v
    · exact notAdvanced_trigger s hv
    · exact regs_performWith_of_ne cfgRef s hv ▸ notAdvanced_refl v _

theorem makesNoSample_raiseIllegalCommand (s : State) : MakesNoSample s (raiseIllegalCommand s) where
  out := rfl
  lfsr := rfl
  outValid := rfl
  pending := rfl
  voice v := regs_raiseIllegalCommand s v ▸ notAdvanced_refl v _

theorem makesNoSample_commandWith (w : CmdWord) (s : State) : MakesNoSample s (commandWith cfgRef w s) := by
  cases hd : decode w with
  | command i => exact commandWith_of_decode_command hd cfgRef s ▸ makesNoSample_performWith i s
  | reserved why => exact commandWith_of_decode_reserved hd cfgRef s ▸ makesNoSample_raiseIllegalCommand s

/-- Settles O14: the upper byte fixes `op` and `sel`, hence the decoder's branch; and no command, nor the exception,
writes what a sample writes. -/
theorem commandDispatchIsTotalAndMakesNoSample : Obligations.CommandDispatchIsTotalAndMakesNoSample := by
  intro w s
  refine ⟨?branch, commandWith cfgRef w s, runCommand_eq_commandWith w s, ?frame⟩
  case branch =>
    symm
    refine ite_eq_iff'.mpr ⟨fun hw => ?_, fun hnop => ?_⟩
    · obtain rfl : w = 0 := BitVec.eq_of_toNat_eq hw
      rfl
    refine ite_eq_iff'.mpr ⟨fun hw => ?_, fun hkick => ?_⟩
    · exact (runCommand_of_decode_command (decode_of_upper_one (sel := 0) hw) s).symm
    refine ite_eq_iff'.mpr ⟨fun hw => ?_, fun hsnare => ?_⟩
    · exact (runCommand_of_decode_command (decode_of_upper_one (sel := 1) hw) s).symm
    refine ite_eq_iff'.mpr ⟨fun hw => ?_, fun hhhc => ?_⟩
    · exact (runCommand_of_decode_command (decode_of_upper_one (sel := 2) hw) s).symm
    refine ite_eq_iff'.mpr ⟨fun hw => ?_, fun hclap => ?_⟩
    · exact (runCommand_of_decode_command (decode_of_upper_one (sel := 3) hw) s).symm
    refine ite_eq_iff'.mpr ⟨fun hw => ?_, fun htom => ?_⟩
    · exact (runCommand_of_decode_command (decode_of_upper_one (sel := 4) hw) s).symm
    refine ite_eq_iff'.mpr ⟨fun hw => ?_, fun hcowbell => ?_⟩
    · exact (runCommand_of_decode_command (decode_of_upper_one (sel := 5) hw) s).symm
    refine ite_eq_iff'.mpr ⟨fun hw => ?_, fun hhho => ?_⟩
    · exact (runCommand_of_decode_command (decode_of_upper_one (sel := 10) hw) s).symm
    refine ite_eq_iff'.mpr ⟨fun hw => ?_, fun htone => ?_⟩
    · exact (runCommand_of_decode_command (decode_of_upper_two (sel := 0) hw) s).symm
    refine ite_eq_iff'.mpr ⟨fun ⟨hw, hdata⟩ => ?_, fun hdecay => ?_⟩
    · exact (runCommand_of_decode_command (decode_of_setDecay_word hw hdata) s).symm
    · have htrigger : w.toNat / 2 ^ 16 ∉ [0x10, 0x11, 0x12, 0x13, 0x14, 0x15, 0x1A] := by
        simp only [List.mem_cons, List.not_mem_nil, or_self, not_false_iff, *]
      exact (runCommand_of_isReserved (isReserved_of_no_branch hnop htrigger htone hdecay) s).symm
  case frame =>
    obtain ⟨hout, hlfsr, hvalid, hpending, hvoice⟩ := makesNoSample_commandWith w s
    obtain ⟨hkcnt, hkprev, hkphase⟩ := hvoice .kick
    obtain ⟨hscnt, hsphase⟩ := hvoice .snare
    obtain ⟨hhcnt, hhph1, hhph2⟩ := hvoice .hihat
    obtain ⟨htcnt, htphase⟩ := hvoice .tom
    obtain ⟨hbcnt, hbph1, hbph2⟩ := hvoice .cowbell
    exact ⟨hout, hlfsr, hvalid, hpending, hkcnt, hkprev, hscnt, hhcnt, hvoice .clap, htcnt, hbcnt, hkphase, hsphase,
      hhph1, hhph2, htphase, hbph1, hbph2⟩

/-! ### Triggers of different voices (R134) -/

/-- `s` with the registers of `t`'s voices. -/
def withVoicesOf (t s : State) : State :=
  { s with kick := t.kick, snare := t.snare, hihat := t.hihat, clap := t.clap, tom := t.tom, cowbell := t.cowbell }

theorem withVoicesOf_congr {t t' : State} (h : ∀ v, regs t v = regs t' v) (s : State) :
    withVoicesOf t s = withVoicesOf t' s := by
  have hk : t.kick = t'.kick := h .kick
  have hs : t.snare = t'.snare := h .snare
  have hh : t.hihat = t'.hihat := h .hihat
  have hc : t.clap = t'.clap := h .clap
  have ht : t.tom = t'.tom := h .tom
  have hb : t.cowbell = t'.cowbell := h .cowbell
  simp only [withVoicesOf, hk, hs, hh, hc, ht, hb]

/-- A trigger writes a voice's registers alone. -/
theorem performWith_trigger_eq {i : Instr} {v : Voice} (h : i.voice = some v) (c : Cfg) (s : State) :
    performWith c i s = withVoicesOf (performWith c i s) s := by
  cases i with
  | nop => cases h
  | setTone => cases h
  | setDecay => cases h
  | _ => rfl

/-- A trigger reads `TONE` and its own voice's registers alone. -/
theorem regs_trigger_congr {i : Instr} {v : Voice} (h : i.voice = some v) (c : Cfg) {s t : State}
    (htone : s.tone = t.tone) (hregs : regs s v = regs t v) :
    regs (performWith c i s) v = regs (performWith c i t) v := by
  cases i <;> cases h
  all_goals
    simp only [regs] at hregs
    simp only [regs, performWith, trigKick_kick, trigSnare_snare, trigHhc_eq, trigHho_eq, trigHihat_hihat,
      trigClap_clap, trigTom_tom, trigCowbell_cowbell, htone, hregs]

theorem trigger_tone {i : Instr} {v : Voice} (h : i.voice = some v) (c : Cfg) (s : State) :
    (performWith c i s).tone = s.tone := by
  rw [performWith_trigger_eq h]
  rfl

/-- Running another voice's trigger first does not change what a trigger leaves in its voice. -/
theorem regs_trigger_after_other {i j : Instr} {v u : Voice} (hi : i.voice = some v) (hj : j.voice = some u)
    (hne : v ≠ u) (c : Cfg) (s : State) :
    regs (performWith c i (performWith c j s)) v = regs (performWith c j (performWith c i s)) v := by
  have hother : j.voice ≠ some v := fun h => hne (Option.some.inj (h.symm.trans hj))
  rw [regs_performWith_of_ne c _ hother]
  exact regs_trigger_congr hi c (trigger_tone hj c s) (regs_performWith_of_ne c s hother)

theorem two_triggers_eq {i j : Instr} {v u : Voice} (hi : i.voice = some v) (hj : j.voice = some u) (c : Cfg)
    (s : State) :
    performWith c j (performWith c i s) = withVoicesOf (performWith c j (performWith c i s)) s :=
  calc performWith c j (performWith c i s)
      = withVoicesOf (performWith c j (performWith c i s)) (performWith c i s) := performWith_trigger_eq hj c _
    _ = withVoicesOf (performWith c j (performWith c i s)) (withVoicesOf (performWith c i s) s) :=
      congrArg (withVoicesOf _) (performWith_trigger_eq hi c s)
    _ = withVoicesOf (performWith c j (performWith c i s)) s := rfl

theorem performWith_trigger_comm {i j : Instr} {v u : Voice} (hi : i.voice = some v) (hj : j.voice = some u)
    (hne : v ≠ u) (c : Cfg) (s : State) :
    performWith c j (performWith c i s) = performWith c i (performWith c j s) := by
  have hregs (x : Voice) :
      regs (performWith c j (performWith c i s)) x = regs (performWith c i (performWith c j s)) x := by
    by_cases hv : x = v
    · rw [hv, regs_trigger_after_other hi hj hne]
    by_cases hu : x = u
    · rw [hu, regs_trigger_after_other hj hi hne.symm]
    have hni : i.voice ≠ some x := fun h => hv (Option.some.inj (h.symm.trans hi))
    have hnj : j.voice ≠ some x := fun h => hu (Option.some.inj (h.symm.trans hj))
    rw [regs_performWith_of_ne c _ hnj, regs_performWith_of_ne c _ hni, regs_performWith_of_ne c _ hni,
      regs_performWith_of_ne c _ hnj]
  rw [two_triggers_eq hi hj, withVoicesOf_congr hregs, ← two_triggers_eq hj hi]

/-- Settles O15: a trigger writes its own voice and reads that voice and `TONE`, which no trigger writes. -/
theorem triggersOfDifferentVoicesCommute : Obligations.TriggersOfDifferentVoicesCommute := by
  intro i j v u hi hj hne s
  refine ⟨_, _, _, exec_eq_performWith i s, exec_eq_performWith j s, exec_eq_performWith j _, ?_⟩
  rw [exec_eq_performWith, performWith_trigger_comm hi hj hne]

/-! ### `ScaleVol` (R131) -/

theorem scaleVol_mono (v0 : Word) {amp amp' : Word} (h : amp.toNat ≤ amp'.toNat) :
    (scaleVol v0 amp).toNat ≤ (scaleVol v0 amp').toNat := by
  rw [scaleVol_toNat, scaleVol_toNat]
  exact Nat.div_le_div_right (Nat.mul_le_mul_left _ (Nat.succ_le_succ h))

theorem scaleVol_full (v0 : Word) : scaleVol v0 0xFFFF = v0 :=
  BitVec.eq_of_toNat_eq ((scaleVol_toNat v0 0xFFFF).trans (Nat.mul_div_cancel _ (by decide)))

theorem scaleVol_zero (v0 : Word) : scaleVol v0 0 = 0 := by
  apply BitVec.eq_of_toNat_eq
  rw [scaleVol_toNat]
  exact Nat.div_eq_of_lt ((Nat.mul_one _).trans_lt v0.isLt)

/-- Settles O34: the factor `amp + 1` is between 1 and 65536; the examples are evaluated. -/
theorem triggerVolumeScalesLinearly : Obligations.TriggerVolumeScalesLinearly := by
  refine ⟨fun v0 amp => ⟨scaleVol_toNat v0 amp, ?product, scaleVol_full v0, scaleVol_zero v0, scaleVol_le v0 amp,
    fun _ => scaleVol_mono v0⟩, by decide⟩
  case product => exact Nat.mul_lt_mul_of_lt_of_le (d := 2 ^ 16) v0.isLt amp.isLt (by decide)

/-! ### The parameter writes (R129, R130) -/

/-- Settles O8: the data field is the new value. -/
theorem setToneWritesToneOnly : Obligations.SetToneWritesToneOnly :=
  fun tone s => ⟨assemble_eq_or 2 0 tone, exec_eq_performWith (.setTone tone) s⟩

/-- A `SET.DECAY` word whose data is above 3 is reserved. -/
theorem isReserved_setDecay_word {data : Word} (h : 3 < data.toNat) : isReserved (assemble 2 1 data) = true :=
  have hdecode : decodeParameter 1 data = .reserved .decayData :=
    decodeParameter_eq_reserved.mpr (.inr ⟨rfl, rfl, h⟩)
  isReserved_of_decode_reserved ((decode_assemble_two 1 data).trans hdecode)

/-- Settles O9: the data field is the index where it is below 4, and reserved above. -/
theorem setDecaySelectsTheMask : Obligations.SetDecaySelectsTheMask := by
  refine ⟨fun idx s => ⟨?word, exec_eq_performWith (.setDecay idx) s, decayMask_toNat idx⟩, fun data s h => ?reserved⟩
  case word =>
    rw [← BitVec.setWidth_setWidth (x := idx) (v := 16) (by decide)]
    exact assemble_eq_or 2 1 (idx.setWidth 16)
  case reserved =>
    have hword : assemble 2 1 data = 0x210000 ||| data.setWidth 24 := assemble_eq_or 2 1 data
    exact hword ▸ runCommand_of_isReserved (isReserved_setDecay_word h) s

end Sys2Proof.Proofs
end

section
/-! The reference host: hysteresis, accent and parameter mapping (spec/49_host_reference.md R141 to R149). -/

namespace Sys2Proof.Proofs

open Sys2Proof Sys2Proof.Machine Sys2Proof.Laws

theorem detectGate_of_thresholds {h : HostCfg} (hon : h.onThreshold = 10) (hoff : h.offThreshold = 3) (gate : Bool)
    (v : Byte) :
    detectGate h gate v = if 10 < v.toNat then true else if v.toNat < 3 then false else gate := by
  rw [detectGate, hon, hoff]
  rfl

/-- Settles O55: of the six levels only 11 is above `ON` with the gate low, and 9 and 3 lie between the thresholds. -/
theorem hysteresisExampleTriggersOnce : Obligations.HysteresisExampleTriggersOnce := by
  intro h r hon hoff hlow
  simp only [onLevels, onLevel, detectGate_of_thresholds hon hoff, hlow]
  rfl

/-- The accent is capped at what its 16 bits hold (R142). -/
theorem accentAmp_toNat (h : HostCfg) (v : Byte) :
    (accentAmp h v).toNat = min 65535 (h.accBase + (v.toNat - h.onThreshold.toNat) * h.accK) :=
  Nat.mod_eq_of_lt (Nat.lt_succ_of_le (min_le_left _ _))

theorem decayIndexOf_toNat (raw : Byte) : (decayIndexOf raw).toNat = min (raw.toNat / 64) 2 := by
  rw [decayIndexOf, Nat.shiftRight_eq_div_pow]
  exact Nat.mod_eq_of_lt ((min_le_right _ 2).trans_lt (by decide))

/-- The index 3, whose mask is 15, is never sent (R144). -/
theorem decayMask_of_index_le_two {idx : BitVec 2} (h : idx.toNat ≤ 2) : (decayMask idx).toNat ∈ [1, 3, 7] := by
  revert idx; decide

theorem mappedTone_toNat (raw : Byte) : (u16 (700 + raw.toNat * 4)).toNat = 700 + raw.toNat * 4 :=
  Nat.mod_eq_of_lt (by have := raw.isLt; omega)

/-- Settles O56: each mapping stays in its operand's range, so the truncation to the field's width is exact. -/
theorem referenceHostStaysInRange : Obligations.ReferenceHostStaysInRange := by
  refine ⟨fun h v _ => accentAmp_toNat h v, fun raw => ?decay, fun raw => ?tone⟩
  case decay =>
    have hindex := decayIndexOf_toNat raw
    exact ⟨_, rfl, hindex, decayMask_of_index_le_two (hindex.trans_le (min_le_right _ 2))⟩
  case tone =>
    have htone := mappedTone_toNat raw
    have hraw := byte_toNat_le raw
    exact ⟨_, rfl, htone, by omega, by omega⟩

end Sys2Proof.Proofs
end

section
/-! The exception `IllegalCommand`, and the events of one clock cycle (spec/60_exceptions.md R150, R152, R155;
spec/70_reset_and_hazards.md R170, R178). -/

namespace Sys2Proof.Proofs

open Sys2Proof Sys2Proof.Machine Sys2Proof.Laws

/-! ### No step stops -/

/-- Settles O17: an idle moment has no event to drop, and every event's rule is followed by dropping it. -/
theorem everyStepAnswersANextState : Obligations.EveryStepAnswersANextState := by
  intro s
  cases hp : s.pending with
  | nil => exact ⟨_, step_of_pending_nil hp, hp⟩
  | cons e rest => exact ⟨_, step_eq_eventWith hp, takeEvent_pending rest _⟩

/-! ### `FAULT` is sticky (R152) -/

/-- The step that serves a reserved word drops it and sets `FAULT`. -/
theorem step_of_nextIsReserved {s : State} (h : nextIsReserved s) :
    step s = .next { s with fault := true, pending := s.pending.tail } := by
  obtain ⟨w, rest, hp, hr⟩ := h
  rw [step_of_pending_cons hp, runEvent, runCommand_of_isReserved hr, hp]
  rfl

/-- The step that serves a `NOP` drops it. -/
theorem step_of_nop {s : State} {rest : List Event} (h : s.pending = .cmd 0x000000 :: rest) :
    step s = .next (takeEvent rest s) :=
  step_of_pending_cons h

theorem fault_of_nextIsReserved {s t : State} (hst : step s = .next t) (h : nextIsReserved s) : t.fault = true := by
  rw [step_of_nextIsReserved h] at hst
  cases hst
  rfl

theorem fault_of_nextIsReset {s t : State} (hst : step s = .next t) (h : nextIsReset s) : t.fault = false := by
  obtain ⟨rest, hp⟩ := h
  rw [step_of_pending_cons hp] at hst
  cases hst
  rfl

/-- Settles O18: `FAULT` has two writers, of which `RESET` leaves 0 and a reserved word 1. -/
theorem illegalCommandIsStickyAndHarmless : Obligations.IllegalCommandIsStickyAndHarmless := by
  refine ⟨fun _ s hr => runCommand_of_isReserved hr s, ?harmless, ?falls, ?rises⟩
  case harmless =>
    intro s t hr hst
    refine ⟨fault_of_nextIsReserved hst hr, fun n hn => ?_⟩
    rw [step_of_nextIsReserved hr] at hst
    rw [step_of_nop rfl] at hn
    cases hst
    cases hn
    rfl
  case falls =>
    intro s t hst hs ht
    refine ((step_served hst).writer_of_fault_ne (by simp [hs, ht])).resolve_right fun hr => ?_
    simp [fault_of_nextIsReserved hst hr] at ht
  case rises =>
    intro s t hst hs ht
    refine ((step_served hst).writer_of_fault_ne (by simp [hs, ht])).resolve_left fun hr => ?_
    simp [fault_of_nextIsReset hst hr] at ht

/-! ### The events of one clock cycle (R155) -/

section
variable {c : Cfg} {w : PinWatch} {p : PinCycle}

theorem cycleEvents_of_reset (hr : p.rstN = false) : cycleEvents c w p = .ok [.reset] := by simp [cycleEvents, hr]

theorem cmdReady_of_reset (hr : p.rstN = false) : cmdReady c w p = false := by simp [cmdReady, hr]

theorem cmdReady_of_busy (hb : engineBusy c w = true) : cmdReady c w p = false := by simp [cmdReady, hb]

theorem cmdReady_of_free (hr : p.rstN = true) (hb : engineBusy c w = false) : cmdReady c w p = true := by
  simp [cmdReady, hr, hb]

theorem cycleEvents_of_overrun (hr : p.rstN = true) (hs : offerStable w p = true) (ht : p.tick = true)
    (hb : engineBusy c w = true) : cycleEvents c w p = .error .tickOverrun := by
  simp [cycleEvents, hr, hs, ht, hb]

/-- A cycle that is neither a reset nor refused gives a `TICK` for a strobe, then a `CMD` for a word that is taken. -/
theorem cycleEvents_of_served (hr : p.rstN = true) (hs : offerStable w p = true)
    (hfree : (p.tick && engineBusy c w) = false) :
    cycleEvents c w p =
      .ok ((if p.tick then [.tick] else []) ++ (if p.cmdValid && cmdReady c w p then [.cmd p.cmd] else [])) := by
  simp [cycleEvents, hr, hs, hfree]

theorem offered_of_not_ready (hr : p.rstN = true) (hv : p.cmdValid = true) (hready : cmdReady c w p = false) :
    (watchAfter c w p).offered = some p.cmd := by
  simp [watchAfter, hr, hv, hready]

end

/-- Settles O52: a clause for each combination of pins. -/
theorem resetOverTickOverCommand : Obligations.ResetOverTickOverCommand := by
  intro c w p
  refine ⟨fun hr => ⟨cycleEvents_of_reset hr, cmdReady_of_reset hr⟩, fun _ => cmdReady_of_busy,
    cycleEvents_of_overrun, ?both, ?waits⟩
  case both =>
    intro hr hs ht hv hb
    rw [cycleEvents_of_served hr hs (by simp [hb]), cmdReady_of_free hr hb, ht, hv]
    rfl
  case waits =>
    intro hr hs ht hv hb
    refine ⟨?_, offered_of_not_ready hr hv (cmdReady_of_busy hb)⟩
    rw [cycleEvents_of_served hr hs (by simp [ht]), cmdReady_of_busy hb, ht, Bool.and_false]
    rfl

end Sys2Proof.Proofs
end

section
/-! A quiescent engine, and the state after reset (spec/70_reset_and_hazards.md R171, R183; spec/60_exceptions.md
R161). -/

namespace Sys2Proof.Proofs

open Sys2Proof Sys2Proof.Machine Sys2Proof.Laws

theorem quiescent_iff (s : State) : s.quiescent = true ↔ ∀ v, s.active v = false := by
  constructor
  · intro h v
    simp only [State.quiescent, Bool.and_eq_true, Bool.not_eq_true', and_assoc] at h
    obtain ⟨hk, hs, hh, hc, ht, hb⟩ := h
    cases v with
    | kick => exact hk
    | snare => exact hs
    | hihat => exact hh
    | clap => exact hc
    | tom => exact ht
    | cowbell => exact hb
  · intro h
    have hk : s.kick.act = false := h .kick
    have hs : s.snare.act = false := h .snare
    have hh : s.hihat.act = false := h .hihat
    have hc : s.clap.act = false := h .clap
    have ht : s.tom.act = false := h .tom
    have hb : s.cowbell.act = false := h .cowbell
    simp [State.quiescent, hk, hs, hh, hc, ht, hb]

theorem contribution_of_inactive (c : Cfg) {s : State} {v : Voice} (h : s.active v = false) :
    (runVoices c s).contribution v = 0 := by
  have hn := ne_true_of_eq_false h
  cases v with
  | kick => exact (runVoices_c0 c s).trans (if_neg hn)
  | snare => exact (runVoices_c1 c s).trans (if_neg hn)
  | hihat => exact (runVoices_c2 c s).trans (if_neg hn)
  | clap => exact (runVoices_c3 c s).trans (if_neg hn)
  | tom => exact (runVoices_c4 c s).trans (if_neg hn)
  | cowbell => exact (runVoices_c5 c s).trans (if_neg hn)

theorem mixSum_eq_zero {p : VoicePass} (h : ∀ v, p.contribution v = 0) : mixSum p = 0 := by
  have h0 : p.c0 = 0 := h .kick
  have h1 : p.c1 = 0 := h .snare
  have h2 : p.c2 = 0 := h .hihat
  have h3 : p.c3 = 0 := h .clap
  have h4 : p.c4 = 0 := h .tom
  have h5 : p.c5 = 0 := h .cowbell
  simp only [mixSum, h0, h1, h2, h3, h4, h5]
  rfl

/-- Without an active noise voice `LFSR` keeps its value (spec/40_noise_lfsr.md R81). -/
theorem lfsrAfterClap_of_inactive (c : Cfg) {s : State} (h : ∀ v, s.active v = false) :
    lfsrAfterClap c s = s.lfsr := by
  have hs : s.snare.act = false := h .snare
  have hh : s.hihat.act = false := h .hihat
  have hc : s.clap.act = false := h .clap
  rw [lfsrAfterClap_eq_iterate, hs, hh, hc]
  rfl

theorem tick_of_quiescent (c : Cfg) {s : State} (h : s.quiescent = true) :
    tick c s = { s with out := 0, outValid := true } := by
  have hidle := (quiescent_iff s).mp h
  have hout : clampSample (mixSum (runVoices c s)) = 0 := by
    rw [mixSum_eq_zero fun v => contribution_of_inactive c (hidle v)]
    rfl
  calc tick c s
      = withVoicesOf (tick c s)
          { s with lfsr := lfsrAfterClap c s, out := clampSample (mixSum (runVoices c s)), outValid := true } := by
        rw [tick_eq]
        rfl
    _ = withVoicesOf s { s with lfsr := s.lfsr, out := 0, outValid := true } := by
        rw [withVoicesOf_congr fun v => regs_tick_of_inactive c (hidle v), lfsrAfterClap_of_inactive c hidle, hout]
    _ = { s with out := 0, outValid := true } := rfl

/-- Settles O45: an inactive voice contributes 0 and keeps its registers, so each further tick finds what the first
one left. -/
theorem quiescentEngineStaysQuiescent : Obligations.QuiescentEngineStaysQuiescent := by
  intro c s h
  refine ⟨tick_of_quiescent c h, fun n => ?_⟩
  induction n with
  | zero => exact tick_of_quiescent c h
  | succ n ih =>
    rw [ticks_succ, ih]
    exact tick_of_quiescent c h

/-- Settles O19: the reset state is quiescent and its `OUT` is 0 already. -/
theorem resetStateIsAFixedPointOfTick : Obligations.ResetStateIsAFixedPointOfTick :=
  ⟨rfl, tick_of_quiescent cfgRef rfl⟩

end Sys2Proof.Proofs
end

section
/-! Every note ends (spec/70_reset_and_hazards.md R184): a count of the ticks a voice can still sound, which each tick
lowers. -/

namespace Sys2Proof.Proofs

open Sys2Proof Sys2Proof.Machine Sys2Proof.Laws

/-! ### One gate evaluation -/

/-- A gate mask with a period of at most 32 ticks. -/
def ShortGate (mask : Byte) : Prop := ∃ n ≤ 5, mask = u8 (2 ^ n - 1)

/-- What one gate evaluation makes of a voice's counter, of the louder of its volumes, and of its flag. -/
structure GateTick (mask cnt cnt' : Byte) (level level' : Nat) (act' : Bool) : Prop where
  count : cnt' = gateCount cnt
  level_le : level' ≤ level
  level_lt : gateFires cnt mask = true → level ≠ 0 → level' < level
  silent : gateFires cnt mask = true → level' = 0 → act' = false

/-- The ticks until the gate has fired once for each unit of `level`, and at least once. -/
def gateTicksLeft (mask cnt : Byte) (level : Nat) : Nat :=
  (mask.toNat + 1) * max 1 level - cnt.toNat % (mask.toNat + 1)

section
variable {mask : Byte} (hm : ShortGate mask)
include hm

theorem ShortGate.exists_period : ∃ n ≤ 5, mask = u8 (2 ^ n - 1) ∧ mask.toNat + 1 = 2 ^ n := by
  obtain ⟨n, hn, rfl⟩ := hm
  refine ⟨n, hn, rfl, ?_⟩
  have hle : 2 ^ n ≤ 2 ^ 5 := Nat.pow_le_pow_right (by decide) hn
  have hpos := Nat.two_pow_pos n
  rw [BitVec.toNat_ofNat]
  omega

theorem ShortGate.period_le : mask.toNat + 1 ≤ 32 := by
  obtain ⟨n, hn, -, hperiod⟩ := hm.exists_period
  exact hperiod.trans_le (Nat.pow_le_pow_right (by decide) hn)

theorem ShortGate.gateFires_iff (cnt : Byte) :
    gateFires cnt mask = true ↔ (cnt.toNat + 1) % (mask.toNat + 1) = 0 := by
  obtain ⟨n, hn, hmask, hperiod⟩ := hm.exists_period
  rw [hperiod, hmask]
  exact gateFires_mask_iff (hn.trans (by decide)) cnt

/-- The counter wraps at 256, a multiple of the period. -/
theorem ShortGate.gateCount_mod (cnt : Byte) :
    (gateCount cnt).toNat % (mask.toNat + 1) = (cnt.toNat + 1) % (mask.toNat + 1) := by
  obtain ⟨n, hn, -, hperiod⟩ := hm.exists_period
  rw [hperiod, gateCount_toNat]
  exact Nat.mod_mod_of_dvd _ (pow_dvd_pow 2 (hn.trans (by decide : 5 ≤ 8)))

/-- Counting up either fires the gate, from the last place of a period, or moves one place on in it. -/
theorem ShortGate.gateCount_cases (cnt : Byte) :
    (gateFires cnt mask = true ∧ (gateCount cnt).toNat % (mask.toNat + 1) = 0 ∧
      cnt.toNat % (mask.toNat + 1) = mask.toNat) ∨
    (gateFires cnt mask = false ∧ cnt.toNat % (mask.toNat + 1) < mask.toNat ∧
      (gateCount cnt).toNat % (mask.toNat + 1) = cnt.toNat % (mask.toNat + 1) + 1) := by
  have hplace : cnt.toNat % (mask.toNat + 1) ≤ mask.toNat := Nat.le_of_lt_succ (Nat.mod_lt _ (Nat.succ_pos _))
  have hnext : (cnt.toNat + 1) % (mask.toNat + 1) = (cnt.toNat % (mask.toNat + 1) + 1) % (mask.toNat + 1) :=
    (Nat.mod_add_mod _ _ _).symm
  rw [← Bool.not_eq_true, hm.gateFires_iff, hm.gateCount_mod, hnext]
  obtain hlast | hlt := hplace.eq_or_lt
  · rw [hlast, Nat.mod_self]
    exact .inl ⟨rfl, rfl, rfl⟩
  · rw [Nat.mod_eq_of_lt (Nat.succ_lt_succ hlt)]
    exact .inr ⟨Nat.succ_ne_zero _, hlt, rfl⟩

/-- While the voice goes on sounding, a gate evaluation lowers the count. -/
theorem GateTick.ticksLeft_lt {cnt cnt' : Byte} {level level' : Nat} {act' : Bool}
    (h : GateTick mask cnt cnt' level level' act') (hact : act' = true) :
    gateTicksLeft mask cnt' level' < gateTicksLeft mask cnt level := by
  obtain ⟨rfl, hle, hlt, hsilent⟩ := h
  unfold gateTicksLeft
  obtain ⟨hfires, hfirst, hlast⟩ | ⟨-, hplace, hnext⟩ := hm.gateCount_cases cnt
  · have hsounds : level' ≠ 0 := fun hz => by simp [hsilent hfires hz] at hact
    have hlower := hlt hfires fun hz => hsounds (Nat.le_zero.mp (hz ▸ hle))
    have hstep : max 1 level' + 1 ≤ max 1 level := by omega
    have hmul := Nat.mul_le_mul_left (mask.toNat + 1) hstep
    rw [Nat.mul_succ] at hmul
    omega
  · have hmul := Nat.mul_le_mul_left (mask.toNat + 1) (max_le_max_left 1 hle)
    have hperiod := Nat.le_mul_of_pos_right (mask.toNat + 1) (Nat.lt_of_lt_of_le Nat.one_pos (le_max_left 1 level'))
    omega

end

theorem gateTicksLeft_pos (mask cnt : Byte) (level : Nat) : 0 < gateTicksLeft mask cnt level := by
  have hplace := Nat.mod_lt cnt.toNat (Nat.succ_pos mask.toNat)
  have hperiod := Nat.le_mul_of_pos_right (mask.toNat + 1) (Nat.lt_of_lt_of_le Nat.one_pos (le_max_left 1 level))
  exact Nat.sub_pos_of_lt (hplace.trans_le hperiod)

theorem gateTicksLeft_le {mask : Byte} {period level : Nat} (hperiod : mask.toNat + 1 ≤ period) (cnt : Byte)
    (hlevel : level ≤ 65535) : gateTicksLeft mask cnt level ≤ period * 65535 :=
  (Nat.sub_le _ _).trans (Nat.mul_le_mul hperiod (max_le (by decide) hlevel))

theorem decayIf_toNat_lt {fires : Bool} (hfires : fires = true) {v : Word} (hv : v.toNat ≠ 0) (sh : Fin 16) :
    (decayIf fires v sh).toNat < v.toNat := by
  subst hfires
  exact decay_toNat_lt (fun hz => hv (congrArg BitVec.toNat hz)) sh

theorem actAfterGate_eq_false_of_silent {act fires silent : Bool} (hfires : fires = true) (hsilent : silent = true) :
    actAfterGate act fires silent = false := by
  rw [actAfterGate, hfires, hsilent]
  rfl

/-- The evaluation of a voice with one volume. -/
theorem gateTick_volume (mask cnt : Byte) (vol : Word) (sh : Fin 16) (act : Bool) :
    GateTick mask cnt (gateCount cnt) vol.toNat (decayIf (gateFires cnt mask) vol sh).toNat
      (actAfterGate act (gateFires cnt mask) (decide (decayIf (gateFires cnt mask) vol sh = 0))) where
  count := rfl
  level_le := decayIf_toNat_le _ _ _
  level_lt hfires hvol := decayIf_toNat_lt hfires hvol sh
  silent hfires hzero :=
    actAfterGate_eq_false_of_silent hfires (decide_eq_true (BitVec.eq_of_toNat_eq hzero))

/-- The evaluation of the Snare, whose two volumes decay on one gate. -/
theorem gateTick_two_volumes (mask cnt : Byte) (vol vol' : Word) (sh sh' : Fin 16) (act : Bool) :
    GateTick mask cnt (gateCount cnt) (max vol.toNat vol'.toNat)
      (max (decayIf (gateFires cnt mask) vol sh).toNat (decayIf (gateFires cnt mask) vol' sh').toNat)
      (actAfterGate act (gateFires cnt mask)
        (decide (decayIf (gateFires cnt mask) vol sh = 0) && decide (decayIf (gateFires cnt mask) vol' sh' = 0))) where
  count := rfl
  level_le := max_le_max (decayIf_toNat_le _ _ _) (decayIf_toNat_le _ _ _)
  level_lt hfires hlevel := by
    have hle := decayIf_toNat_le (gateFires cnt mask) vol sh
    have hle' := decayIf_toNat_le (gateFires cnt mask) vol' sh'
    have hlt (hvol : vol.toNat ≠ 0) := decayIf_toNat_lt hfires hvol sh
    have hlt' (hvol : vol'.toNat ≠ 0) := decayIf_toNat_lt hfires hvol sh'
    omega
  silent hfires hzero := by
    obtain ⟨hz, hz'⟩ := Nat.max_eq_zero_iff.mp hzero
    refine actAfterGate_eq_false_of_silent hfires (Bool.and_eq_true_iff.mpr ⟨?_, ?_⟩)
    · exact decide_eq_true (BitVec.eq_of_toNat_eq hz)
    · exact decide_eq_true (BitVec.eq_of_toNat_eq hz')

/-! ### The count of a voice -/

/-- The gate counter among a voice's registers. -/
def gateCnt : (v : Voice) → VoiceRegs v → Byte
  | .kick, r => r.cnt
  | .snare, r => r.cnt
  | .hihat, r => r.cnt
  | .clap, r => r.cnt
  | .tom, r => r.cnt
  | .cowbell, r => r.cnt

/-- A voice's volume, the larger one of the Snare's two. -/
def level : (v : Voice) → VoiceRegs v → Nat
  | .kick, r => r.vol.toNat
  | .snare, r => max r.nvol.toNat r.tvol.toNat
  | .hihat, r => r.vol.toNat
  | .clap, r => r.vol.toNat
  | .tom, r => r.vol.toNat
  | .cowbell, r => r.vol.toNat

/-- The ticks of the Clap's bursts still to come, in which its gate is not evaluated (spec/45_clap.md R117). -/
def burstLeft : (v : Voice) → VoiceRegs v → Nat
  | .clap, r => r.stut.toNat * 202 - r.timer.toNat
  | _, _ => 0

/-- The mask a voice's gate is evaluated with. -/
def gateMask (s : State) : Voice → Byte
  | .hihat => s.hihat.speed ||| decayMask s.decayIdx
  | _ => decayMask s.decayIdx

/-- The ticks a voice can still sound, at most. -/
def ticksLeft (s : State) (v : Voice) : Nat :=
  if s.active v then gateTicksLeft (gateMask s v) (gateCnt v (regs s v)) (level v (regs s v)) + burstLeft v (regs s v)
  else 0

theorem inactive_of_ticksLeft_eq_zero {s : State} {v : Voice} (h : ticksLeft s v = 0) : s.active v = false := by
  by_contra hact
  rw [ticksLeft, if_pos (Bool.eq_true_of_not_eq_false hact)] at h
  exact (gateTicksLeft_pos _ _ _).ne' (Nat.add_eq_zero_iff.mp h).1

theorem shortGate_decayMask (idx : BitVec 2) : ShortGate (decayMask idx) :=
  ⟨idx.toNat + 1, idx.isLt.trans (by decide), decayMask_eq_u8 idx⟩

/-- The open Hi-hat's mask has the longest period, 32, whatever `DECAY_IDX` is. -/
theorem shortGate_hihat {speed : Byte} (h : speed = 0 ∨ speed = 0x01 ∨ speed = 0x1F) (idx : BitVec 2) :
    ShortGate (speed ||| decayMask idx) := by
  obtain rfl | rfl | rfl := h
  · have hzero : (0 : Byte) ||| decayMask idx = decayMask idx := BitVec.zero_or
    rw [hzero]
    exact shortGate_decayMask idx
  · have hlow : (0x01 : Byte) ||| decayMask idx = decayMask idx := by revert idx; decide
    rw [hlow]
    exact shortGate_decayMask idx
  · have hhigh : (0x1F : Byte) ||| decayMask idx = 0x1F := by revert idx; decide
    rw [hhigh]
    exact ⟨5, le_rfl, rfl⟩

theorem shortGate_gateMask {s : State} {v : Voice} (h : VoiceInv v (regs s v)) : ShortGate (gateMask s v) := by
  cases v with
  | hihat =>
    have hh : HihatInv s.hihat := h
    exact shortGate_hihat hh.speed s.decayIdx
  | _ => exact shortGate_decayMask s.decayIdx

theorem level_le (v : Voice) (r : VoiceRegs v) : level v r ≤ 65535 := by
  have hword (w : Word) : w.toNat ≤ 65535 := Nat.le_of_lt_succ w.isLt
  cases v with
  | snare => exact max_le (hword _) (hword _)
  | _ => exact hword _

/-- The bursts add 606 ticks to the Clap's count, whose gate period is at most 16. -/
theorem ticksLeft_le {s : State} {v : Voice} (h : VoiceInv v (regs s v)) : ticksLeft s v ≤ 32 * 65535 := by
  have hmask (idx : BitVec 2) : (decayMask idx).toNat + 1 ≤ 16 := by revert idx; decide
  unfold ticksLeft
  split
  next =>
    cases v with
    | clap =>
      have hgate := gateTicksLeft_le (hmask s.decayIdx) s.clap.cnt (level_le .clap s.clap)
      have hstut := s.clap.stut.isLt
      show gateTicksLeft (decayMask s.decayIdx) s.clap.cnt (level .clap s.clap) +
        (s.clap.stut.toNat * 202 - s.clap.timer.toNat) ≤ 32 * 65535
      omega
    | _ => exact gateTicksLeft_le (shortGate_gateMask h).period_le _ (level_le _ _)
  next => exact Nat.zero_le _

/-! ### A tick lowers it -/

/-- A tick evaluates the gate of an active voice, unless it is a Clap in its bursts. -/
theorem gateTick_ticked (s : State) {v : Voice} (hsustain : v = .clap → s.clap.stut = 0) :
    GateTick (gateMask s v) (gateCnt v (regs s v)) (gateCnt v (ticked cfgRef s v)) (level v (regs s v))
      (level v (ticked cfgRef s v)) (flag v (ticked cfgRef s v)) := by
  cases v with
  | snare => exact gateTick_two_volumes _ _ _ _ _ _ _
  | clap =>
    rw [ticked, clapTick_of_stut_eq (hsustain rfl)]
    exact gateTick_volume _ _ _ _ _
  | _ => exact gateTick_volume _ _ _ _ _

theorem burstLeft_ticked (s : State) {v : Voice} (hsustain : v = .clap → s.clap.stut = 0) :
    burstLeft v (ticked cfgRef s v) = 0 := by
  cases v with
  | clap =>
    have hstut := hsustain rfl
    rw [ticked, clapTick_of_stut_eq hstut, burstLeft, clapSustain, hstut]
    exact Nat.zero_sub _
  | _ => rfl

theorem clapBurst_cnt (c : Cfg) (bit : Bool) (v : Clap) : (clapBurst c bit v).1.cnt = v.cnt := by
  unfold clapBurst
  split
  · rfl
  · split <;> rfl

/-- A bursting Clap counts its timer up to 201, and then starts the next of its periods. -/
theorem burstLeft_clapBurst_lt {r : Clap} (hstut : r.stut ≠ 0) (htimer : r.timer.toNat ≤ 201) (bit : Bool) :
    burstLeft .clap (clapBurst cfgRef bit r).1 < burstLeft .clap r := by
  have hperiods : r.stut.toNat ≠ 0 := fun hz => hstut (BitVec.eq_of_toNat_eq hz)
  have hcount (ht : r.timer.toNat ≤ 200) :
      r.stut.toNat * 202 - (u8 (r.timer.toNat + 1)).toNat < r.stut.toNat * 202 - r.timer.toNat := by
    rw [BitVec.toNat_ofNat]
    omega
  unfold clapBurst
  split
  next hon => exact hcount (hon.le.trans (by decide))
  next =>
    split
    next hend =>
      have hnext : (r.stut - 1).toNat = r.stut.toNat - 1 := by
        rw [stutter_sub_one hstut]
        exact Nat.mod_eq_of_lt ((Nat.sub_le _ _).trans_lt r.stut.isLt)
      show (r.stut - 1).toNat * 202 - 0 < r.stut.toNat * 202 - r.timer.toNat
      omega
    next hgap => exact hcount (Nat.le_of_not_lt hgap)

theorem gateMask_tick (c : Cfg) (s : State) (v : Voice) : gateMask (tick c s) v = gateMask s v := by
  cases v with
  | hihat =>
    have hspeed : (hihatAfter c s).speed = s.hihat.speed := by
      unfold hihatAfter
      split <;> rfl
    rw [gateMask, gateMask, tick_decayIdx, tick_hihat, hspeed]
  | _ => exact congrArg decayMask (tick_decayIdx c s)

section
variable {s : State} {v : Voice}

theorem ticksLeft_of_active (ha : s.active v = true) :
    ticksLeft s v =
      gateTicksLeft (gateMask s v) (gateCnt v (regs s v)) (level v (regs s v)) + burstLeft v (regs s v) := if_pos ha

theorem ticksLeft_of_inactive (ha : s.active v = false) : ticksLeft s v = 0 := if_neg (ne_true_of_eq_false ha)

theorem voiceInv_tick (h : VoiceInv v (regs s v)) : VoiceInv v (regs (tick cfgRef s) v) := by
  cases ha : s.active v with
  | false => exact regs_tick_of_inactive cfgRef ha ▸ h
  | true => exact regs_tick_of_active cfgRef ha ▸ voiceInv_ticked ha h

/-- A voice that still sounds after a tick has fewer ticks left than before it. -/
theorem ticksLeft_tick_lt (h : VoiceInv v (regs s v)) (ha : s.active v = true)
    (ha' : (tick cfgRef s).active v = true) : ticksLeft (tick cfgRef s) v < ticksLeft s v := by
  rw [ticksLeft_of_active ha', ticksLeft_of_active ha, gateMask_tick, regs_tick_of_active cfgRef ha]
  rw [active_eq_flag, regs_tick_of_active cfgRef ha] at ha'
  by_cases hsustain : v = .clap → s.clap.stut = 0
  · have hgate := (gateTick_ticked s hsustain).ticksLeft_lt (shortGate_gateMask h) ha'
    have hburst := burstLeft_ticked s hsustain
    omega
  · obtain ⟨rfl, hstut⟩ := Classical.not_imp.mp hsustain
    have hc : ClapInv s.clap := h
    have hburst := burstLeft_clapBurst_lt hstut hc.timer_le (lfsrBit (lfsrAfterHihat cfgRef s))
    rw [ticked, clapTick_of_stut_ne hstut, gateCnt, level, clapBurst_cnt, clapBurst_vol]
    exact Nat.add_lt_add_left hburst _

theorem ticksLeft_tick_le (h : VoiceInv v (regs s v)) : ticksLeft (tick cfgRef s) v ≤ ticksLeft s v - 1 := by
  cases ha' : (tick cfgRef s).active v with
  | false => exact (ticksLeft_of_inactive ha').trans_le (Nat.zero_le _)
  | true =>
    cases ha : s.active v with
    | false =>
      rw [active_congr (regs_tick_of_inactive cfgRef ha), ha] at ha'
      cases ha'
    | true => exact Nat.le_sub_one_of_lt (ticksLeft_tick_lt h ha ha')

theorem ticksLeft_ticks_le (h : VoiceInv v (regs s v)) (n : Nat) :
    ticksLeft (ticks cfgRef n s) v ≤ ticksLeft s v - n := by
  induction n generalizing s with
  | zero => exact le_rfl
  | succ n ih =>
    have hfirst := ticksLeft_tick_le h
    have hrest := ih (voiceInv_tick h)
    rw [ticks]
    omega

end

/-- Settles O49: every tick lowers each voice's count, which is at most 32 * 65535 at first. -/
theorem everyNoteEnds : Obligations.EveryNoteEnds := by
  intro s n hinv hn
  rw [quiescent_iff]
  intro v
  have hv := ((inv_iff s).mp hinv).2 v
  have hleft := ticksLeft_ticks_le hv n
  have hbound := ticksLeft_le hv
  exact inactive_of_ticksLeft_eq_zero (by omega)

end Sys2Proof.Proofs
end
